-- ==== Sys2Proof/Word.lean ====
section
/-! DEFINITION. The word types of the block (spec 00_scope.md R5, R6) and the data formats that
operands, memories and configuration share: the RangePoint (30_encoding.md R66), the RawFrame (R61)
and the batch (R68). -/

namespace Sys2Proof

/-- A byte, bit 7 most significant (R6). -/
abbrev Byte := BitVec 8

/-- A 2-byte field: an angle, a distance, a signed operand (R64, R65, R72). -/
abbrev Half := BitVec 16

/-- One 40-bit entry of `SWBUF` or `SWOUT` (R66). -/
abbrev Entry := BitVec 40

/-- A RangePoint (R66): the fields as they stand in a 40-bit entry. A value whose angle is 36000 or
more can be written down in a payload and is not a RangePoint (R73). -/
structure Point where
  angleCd  : Half
  distMm   : Half
  strength : Byte
  deriving DecidableEq, Repr

/-- A RawFrame (R61): "length is always exactly 47 bytes", `FRAME_LEN = 47`. -/
structure Frame where
  bytes : List Byte
  len   : bytes.length = 47
  deriving DecidableEq, Repr

/-- A batch (R68): exactly 12 points, `N_REC = 12`, index 0 first. -/
structure Batch where
  points : List Point
  len    : points.length = 12
  deriving DecidableEq, Repr

end Sys2Proof
end

