-- ==== Sys2Proof/Syntax.lean ====
section
/-! DEFINITION. The sixteen operations of 30_encoding.md R70, one constructor per row of the opcode
table, and the words of the three input ports (R69). -/

namespace Sys2Proof

/-- The input ports of R69; each is driven by one agent (60_exceptions.md R180): `rx` by the
producer, `estop` by the estop trigger, `cmd` by the consumer. -/
inductive Port where
  | rx
  | estop
  | cmd
  deriving DecidableEq, Repr

/-- One word accepted at an input port (R69): "each word accepted at an input port is one
operation". A `CMD` word is one opcode byte and its payload (R71). -/
inductive PortWord where
  | rx (w : BitVec 9)
  | estop (w : BitVec 1)
  | cmd (bytes : List Byte)
  deriving DecidableEq, Repr

/-- The port a word arrives at. -/
def PortWord.port : PortWord → Port
  | .rx _ => .rx
  | .estop _ => .estop
  | .cmd _ => .cmd

/-- The operations of R70 with their operands (R72). -/
inductive Instr where
  /-- `RX_BYTE data`: one byte physically received (R92). -/
  | rxByte (data : Byte)
  /-- `RX_ERROR`: a hardware transfer error (R94). -/
  | rxError
  /-- `ESTOP_EDGE`: one active edge of the estop input (R158). -/
  | estopEdge
  /-- `BEGIN baud` (R91). -/
  | beginRx (baud : BitVec 32)
  /-- `TAKE_FRAME` (R95). -/
  | takeFrame
  /-- `DECODE f` (R111). -/
  | decodeFrame (f : Frame)
  /-- `ADD_BATCH b` (R135). -/
  | addBatch (b : Batch)
  /-- `TAKE_SWEEP` (R136). -/
  | takeSweep
  /-- `SWEEP_INVALIDATE` (R137). -/
  | sweepInvalidate
  /-- `ADD_POINT p` (R131). -/
  | addPoint (p : Point)
  /-- `SET_FORWARD power`, signed, 1/10000 of full scale (R151). -/
  | setForward (power : Half)
  /-- `SET_REVERSE power`, signed, 1/10000 of full scale (R152). -/
  | setReverse (power : Half)
  /-- `SET_STEERING angle`, signed centidegrees, positive left (R153). -/
  | setSteering (angle : Half)
  /-- `PAUSE` (R155). -/
  | pause
  /-- `UNPAUSE` (R156). -/
  | unpause
  /-- `TOGGLE_PAUSE` (R157). -/
  | togglePause
  deriving DecidableEq, Repr

/-- The port of each operation (R70, R180). -/
def Instr.port : Instr → Port
  | .rxByte _ => .rx
  | .rxError => .rx
  | .estopEdge => .estop
  | .beginRx _ => .cmd
  | .takeFrame => .cmd
  | .decodeFrame _ => .cmd
  | .addBatch _ => .cmd
  | .takeSweep => .cmd
  | .sweepInvalidate => .cmd
  | .addPoint _ => .cmd
  | .setForward _ => .cmd
  | .setReverse _ => .cmd
  | .setSteering _ => .cmd
  | .pause => .cmd
  | .unpause => .cmd
  | .togglePause => .cmd

end Sys2Proof
end

