-- ==== Sys2Proof/WellFormed.lean ====
section
/-! DEFINITION. Which operations are well formed. The lengths of a frame and of a batch are in
their types; what is left is R66's and R73's: the angle of a POINT is below 36000. An operation that
is not well formed can be encoded, and the block ignores it with result `ILLEGAL` (R73). -/

namespace Sys2Proof

/-- R66: `angle_cd` is an integer 0..35999. -/
def Point.wellFormed (p : Point) : Bool := decide (p.angleCd.toNat < 36000)

/-- The operands of an operation are those its rule admits (R73 (b)). -/
def Instr.wellFormed : Instr → Bool
  | .rxByte _ => true
  | .rxError => true
  | .estopEdge => true
  | .beginRx _ => true
  | .takeFrame => true
  | .decodeFrame _ => true
  | .addBatch b => b.points.all Point.wellFormed
  | .takeSweep => true
  | .sweepInvalidate => true
  | .addPoint p => p.wellFormed
  | .setForward _ => true
  | .setReverse _ => true
  | .setSteering _ => true
  | .pause => true
  | .unpause => true
  | .togglePause => true

end Sys2Proof
end

