-- ==== Sys2Proof/Decode.lean ====
section
/-! DEFINITION. The decoder of the three input ports and the encoder beside it (30_encoding.md R66,
R69 to R73), the byte-order helpers they share (20_memory.md R41), and the host's view of a row of
the opcode table. -/

namespace Sys2Proof

/-- `u16le(lo, hi) = lo + 256*hi` (R6, R41). -/
def u16le (lo hi : Byte) : Half := hi ++ lo

/-- The 4-byte operand of format `C4` (R72). -/
def u32le (b0 b1 b2 b3 : Byte) : BitVec 32 := (b3 ++ b2) ++ (b1 ++ b0)

/-- The two bytes of a 2-byte field, less significant first (R41). -/
def halfBytes (h : Half) : List Byte := [h.extractLsb' 0 8, h.extractLsb' 8 8]

/-- The four bytes of `baud`, least significant first (R72). -/
def wordBytes (v : BitVec 32) : List Byte :=
  [v.extractLsb' 0 8, v.extractLsb' 8 8, v.extractLsb' 16 8, v.extractLsb' 24 8]

/-- A POINT in its 5-byte form (R66). -/
def pointBytes (p : Point) : List Byte := halfBytes p.angleCd ++ halfBytes p.distMm ++ [p.strength]

/-- The POINTs of a payload, 5 bytes each (R66, R72); none if the bytes are no whole number of
them. -/
def pointsOfBytes : List Byte → Option (List Point)
  | [] => some []
  | a0 :: a1 :: d0 :: d1 :: st :: rest =>
    match pointsOfBytes rest with
    | some ps => some (⟨u16le a0 a1, u16le d0 d1, st⟩ :: ps)
    | none => none
  | _ => none

/-- The payload length of each opcode (R71); none for an opcode that is not in R70. -/
def payloadLen (op : Byte) : Option Nat :=
  if op = 0x01#8 then some 4
  else if op = 0x02#8 then some 0
  else if op = 0x03#8 then some 47
  else if op = 0x04#8 then some 60
  else if op = 0x05#8 then some 0
  else if op = 0x06#8 then some 0
  else if op = 0x07#8 then some 5
  else if op = 0x10#8 then some 2
  else if op = 0x11#8 then some 2
  else if op = 0x12#8 then some 2
  else if op = 0x18#8 then some 0
  else if op = 0x19#8 then some 0
  else if op = 0x1A#8 then some 0
  else none

/-- Format `C0`: no payload. -/
def operandC0 (i : Instr) : List Byte → Option Instr
  | [] => some i
  | _ => none

/-- Format `C2`: a signed 16-bit operand (R72). -/
def operandC2 (mk : Half → Instr) : List Byte → Option Instr
  | [p0, p1] => some (mk (u16le p0 p1))
  | _ => none

/-- Format `C4`: `baud` (R72). -/
def operandC4 : List Byte → Option Instr
  | [p0, p1, p2, p3] => some (.beginRx (u32le p0 p1 p2 p3))
  | _ => none

/-- Format `CP`: one POINT (R72). -/
def operandCP (p : List Byte) : Option Instr :=
  match pointsOfBytes p with
  | some [pt] => some (.addPoint pt)
  | _ => none

/-- Format `CF`: the 47 bytes of a frame, `f[i] = p[i]` (R72). -/
def operandCF (p : List Byte) : Option Instr :=
  if h : p.length = 47 then some (.decodeFrame ⟨p, h⟩) else none

/-- Format `CB`: 12 POINTs (R72). -/
def operandCB (p : List Byte) : Option Instr :=
  match pointsOfBytes p with
  | some pts => if h : pts.length = 12 then some (.addBatch ⟨pts, h⟩) else none
  | none => none

/-- The operation of an opcode of R70 with its payload; none where the payload has not the length
R71 gives the opcode. -/
def assemble (op : Byte) (p : List Byte) : Option Instr :=
  if op = 0x01#8 then operandC4 p
  else if op = 0x02#8 then operandC0 .takeFrame p
  else if op = 0x03#8 then operandCF p
  else if op = 0x04#8 then operandCB p
  else if op = 0x05#8 then operandC0 .takeSweep p
  else if op = 0x06#8 then operandC0 .sweepInvalidate p
  else if op = 0x07#8 then operandCP p
  else if op = 0x10#8 then operandC2 .setForward p
  else if op = 0x11#8 then operandC2 .setReverse p
  else if op = 0x12#8 then operandC2 .setSteering p
  else if op = 0x18#8 then operandC0 .pause p
  else if op = 0x19#8 then operandC0 .unpause p
  else if op = 0x1A#8 then operandC0 .togglePause p
  else none

/-- What the decoder says of a port word. -/
inductive Decoded where
  /-- The word is this operation. -/
  | instr (i : Instr)
  /-- The opcode byte is none of the thirteen of R70: an illegal command (R73 (a)). -/
  | illegalOpcode (op : Byte)
  /-- The word has no opcode byte, or its payload has not the opcode's length (R71): no `CMD`
  word. -/
  | wrongLength (bytes : List Byte)
  /-- An `ESTOP` word other than 1: no `ESW` word (R69). -/
  | noEdge
  deriving DecidableEq, Repr

/-- The `CMD` port (R71): the opcode byte, then its payload. -/
def decodeCmd : List Byte → Decoded
  | [] => .wrongLength []
  | op :: p =>
    match payloadLen op with
    | none => .illegalOpcode op
    | some _ =>
      match assemble op p with
      | some i => .instr i
      | none => .wrongLength (op :: p)

/-- The `RX` port (R69): bit 8 is `err`, bits 7:0 are `data`, ignored when `err = 1`. -/
def decodeRx (w : BitVec 9) : Instr :=
  if w.extractLsb' 8 1 = 0#1 then .rxByte (w.extractLsb' 0 8) else .rxError

/-- The `ESTOP` port (R69): one active edge is the word 1. -/
def decodeEstop (w : BitVec 1) : Decoded := if w = 1#1 then .instr .estopEdge else .noEdge

/-- The decoder, total on every port word. The port alone selects the format (R69, R71: "there are
no prefixes and no mode bits that change decoding"). -/
def decode : PortWord → Decoded
  | .rx w => .instr (decodeRx w)
  | .estop w => decodeEstop w
  | .cmd bytes => decodeCmd bytes

/-- The word of each operation (R69 to R72). `RX_ERROR`'s ignored data bits are written as zeros
(log entry 10). -/
def encode : Instr → PortWord
  | .rxByte d => .rx (0#1 ++ d)
  | .rxError => .rx 0x100#9
  | .estopEdge => .estop 1#1
  | .beginRx baud => .cmd (0x01#8 :: wordBytes baud)
  | .takeFrame => .cmd [0x02#8]
  | .decodeFrame f => .cmd (0x03#8 :: f.bytes)
  | .addBatch b => .cmd (0x04#8 :: b.points.flatMap pointBytes)
  | .takeSweep => .cmd [0x05#8]
  | .sweepInvalidate => .cmd [0x06#8]
  | .addPoint p => .cmd (0x07#8 :: pointBytes p)
  | .setForward v => .cmd (0x10#8 :: halfBytes v)
  | .setReverse v => .cmd (0x11#8 :: halfBytes v)
  | .setSteering v => .cmd (0x12#8 :: halfBytes v)
  | .pause => .cmd [0x18#8]
  | .unpause => .cmd [0x19#8]
  | .togglePause => .cmd [0x1A#8]

/-- Byte `k` of a row's bits, bit 0 the least significant bit of the first byte, every bit at
`nbits` and above zero. -/
def tableByte (nbits w k : Nat) : Byte := BitVec.ofNat 8 ((w % 2 ^ nbits) >>> (8 * k))

/-- The port word of a row of the opcode table whose bits are `w`. The table's rows are words of
three ports and `nbits` tells them apart: fewer than 8 bits is the 1-bit `ESTOP` word, 9 to 16 bits
the 9-bit `RX` word, anything else a `CMD` word, whose payload is filled with zero bytes to the
length R71 gives its opcode. No `CMD` word is 2 bytes long, so only the `ESTOP` word given as a whole
byte cannot be told from `BEGIN`'s opcode (log entry 13). -/
def tableWord (nbits w : Nat) : PortWord :=
  if nbits < 8 then .estop (BitVec.ofNat 1 w)
  else if 8 < nbits ∧ nbits ≤ 16 then .rx (BitVec.ofNat 9 w)
  else
    .cmd (tableByte nbits w 0 ::
      (List.range ((payloadLen (tableByte nbits w 0)).getD 0)).map
        fun k => tableByte nbits w (k + 1))

/-- The instruction the decoder reads from a row's bits. -/
def decodeTableWord (nbits w : Nat) : Option Instr :=
  match decode (tableWord nbits w) with
  | .instr i => some i
  | _ => none

end Sys2Proof
end

