-- ==== Sys2Proof/Config.lean ====
section
/-! DEFINITION. The parameter record of 00_scope.md R4, which 10_state.md R25 calls the control
registers of the block: fixed before reset is released, immutable afterwards. A record outside the
constraints of R4 is not a `Config` (R25: "the block is not built").

The fixed sizes of R4 are numerals of the model: `FRAME_LEN` 47, `N_REC` 12, `REC_LEN` 3,
`PROBE_LEN` 1, `ANGLE_MOD` 36000, `INTERP_DIV` 11. -/

namespace Sys2Proof

/-- The frame layouts of R61. -/
inductive Layout where
  | doc
  | ld06
  deriving DecidableEq, Repr

/-- The parameters of R112's CRC of width 8. What the two reflection flags do is PRESUMED (log
entry 5); R112's own algorithm has both clear. -/
structure CrcParams where
  poly       : Byte
  init       : Byte
  xorOut     : Byte
  reflectIn  : Bool
  reflectOut : Bool
  deriving DecidableEq, Repr

/-- The checksum function, an open parameter (92_eei_decisions.md D3): a CRC-8 of R112's form, or
any other function, about which nothing is known (log entry 5). -/
inductive Checksum where
  | crc8 (p : CrcParams)
  | other
  deriving DecidableEq, Repr

/-- A servo position, the abstract type of `servo_map`'s values (D22). Its inside is never looked
at; it is a number only so that states can be compared (log entry 4). -/
structure ServoPos where
  raw : Int
  deriving DecidableEq, Repr, Inhabited

/-- The parameters of R4 as they are given, before the check of their constraints. -/
structure Params where
  header    : Byte
  checksum  : Checksum
  layout    : Layout
  spanStart : Nat
  spanWidth : Nat
  nTarget   : Nat
  fifoDepth : Nat
  refPoint  : Point
  speedCap  : Int
  maxSteer  : Int
  steerBias : Int
  deriving DecidableEq, Repr

/-- The constraints of R4's table. -/
def Params.legal (p : Params) : Bool :=
  decide (p.spanStart ≤ 35999) &&
  decide (1 ≤ p.spanWidth) && decide (p.spanWidth ≤ 36000) &&
  decide (1 ≤ p.nTarget) && decide (p.nTarget ≤ p.fifoDepth) &&
  decide (0 ≤ p.speedCap) && decide (p.speedCap ≤ 32767) &&
  decide (0 ≤ p.maxSteer) && decide (p.maxSteer ≤ 32767) &&
  decide (-32768 ≤ p.steerBias) && decide (p.steerBias ≤ 32767) &&
  decide (p.refPoint.angleCd.toNat < 36000)

/-- A legal parameter record: what the block is built with. -/
structure Config extends Params where
  isLegal : toParams.legal = true
  deriving DecidableEq, Repr

/-- Building the block (R25): "a record violating a constraint is refused by the model". -/
def Config.build (p : Params) : Option Config :=
  if h : p.legal = true then some ⟨p, h⟩ else none

/-- `servo_map` (R4, R153): a total function, OPEN. Uninterpreted: no value of it can be proved
(log entry 4). -/
opaque Config.servoMap : Int → ServoPos

/-- The checksum function where it is none of R112's CRCs (D3). Uninterpreted (log entry 5). -/
opaque Config.otherChecksum : List Byte → Byte

/-- The default CRC-8 of R4 and R112. -/
def Config.defaultCrc : CrcParams :=
  { poly := 0x4D#8, init := 0x00#8, xorOut := 0x00#8, reflectIn := false, reflectOut := false }

/-- R4's defaults where it gives them. DESIGN CHOICE, unsafe (log entry 3): the required
parameters, for which R4 gives no default, have the values the vectors of 95_test_vectors.md use. -/
def Config.defaultParams : Params :=
  { header := 0x54#8, checksum := .crc8 Config.defaultCrc, layout := .doc, spanStart := 0,
    spanWidth := 36000, nTarget := 24, fifoDepth := 24, refPoint := ⟨0#16, 0#16, 0#8⟩,
    speedCap := 3000, maxSteer := 2400, steerBias := -150 }

/-- The record `State.reset` is built with (log entry 3). -/
def Config.default : Config := ⟨Config.defaultParams, by decide⟩

end Sys2Proof
end

