-- ==== Sys2Proof/Machine/State.lean ====
section
/-! DEFINITION. The state of the block: the elements of 10_state.md R10 to R24, the configuration
registers of R25, and the model's three own fields for the ports (log entries 1 and 2); the results
and calls those ports carry (30_encoding.md R74, R75); the reasons a step can stop. -/

namespace Sys2Proof.Machine

/-- `rx_phase` (R11). A three-valued type: the encoding 3 never occurs (R73 (e)). -/
inductive RxPhase where
  | idle
  | probe
  | frame
  deriving DecidableEq, Repr

/-- `rx_wbank` (R13): `bank0` is 0, `bank1` is 1. -/
inductive Bank where
  | bank0
  | bank1
  deriving DecidableEq, Repr

/-- The memories of 20_memory.md R40. -/
inductive Space where
  | rxbank0
  | rxbank1
  | swbuf
  | swout
  deriving DecidableEq, Repr

/-- A memory of `w`-bit cells: (cell, value) pairs, the cells strictly rising. A cell that is not
listed has no value (10_state.md R14, R17, R20; 93_implementation_defined.md U9; log entry 6). A
memory of bytes is a list of `Host.Cell`. -/
abbrev Memory (w : Nat) := List (Nat × BitVec w)

/-- `act_motor` (R23): the last motor call, `v` in units of 1/10000 of full scale. -/
inductive Motor where
  | none
  | neutral
  | forward (v : Int)
  | reverse (v : Int)
  deriving DecidableEq, Repr

/-- `act_servo` (R24): the last steering call. -/
inductive Servo where
  | none
  | pos (p : ServoPos)
  deriving DecidableEq, Repr

/-- The errors `DECODE` returns as values (60_exceptions.md R170). -/
inductive DecodeError where
  | headerMismatch
  | checksumMismatch
  deriving DecidableEq, Repr

/-- One word at the `RES` port (R74). -/
inductive Result where
  /-- `DONE`. -/
  | done
  /-- `TAKE_FRAME`: `none`. -/
  | noFrame
  /-- `TAKE_FRAME`: `some(f)`. -/
  | frame (f : Frame)
  /-- `DECODE`: `OK(batch)`, status 0. -/
  | ok (b : Batch)
  /-- `DECODE`: `ERR(e)`, status 1 or 2. -/
  | err (e : DecodeError)
  /-- `ADD_POINT`, `ADD_BATCH`: the number of Sweeps emitted. -/
  | emitted (k : Nat)
  /-- `TAKE_SWEEP`: `none`. -/
  | noSweep
  /-- `TAKE_SWEEP`: `some(s)`. -/
  | sweep (s : List Point)
  /-- An illegal command: `ILLEGAL` (R73). -/
  | illegal
  deriving DecidableEq, Repr

/-- One call at the `ACT` port: the actuator driver's whole interface (R75). The block makes the
first four calls and never `arm()`. -/
inductive ActCall where
  | write (p : ServoPos)
  | setForwardDuty (v : Int)
  | setReverseDuty (v : Int)
  | setNeutral
  | arm
  deriving DecidableEq, Repr

/-- Why a step stops with a fault. The block itself has no fault (60_exceptions.md R173); these
are the model's, for memory accesses no reachable state makes. -/
inductive Fault where
  /-- Raised by `TAKE_FRAME`, `TAKE_SWEEP` and an emission inside `ADD_POINT` or `ADD_BATCH` that
  reads a cell nothing has written. Safe: the spec gives such a cell no value (log entry 6). -/
  | unwrittenCell (sp : Space) (cell : Nat)
  /-- Raised by `TAKE_SWEEP`, `ADD_POINT` and `ADD_BATCH` on a cell past the end of `SWBUF` or
  `SWOUT`. Safe: there is no such cell (R40; log entry 6). -/
  | noSuchCell (sp : Space) (cell : Nat)
  deriving DecidableEq, Repr

/-- Why a step refuses. -/
inductive Refusal where
  /-- Raised by `exec` for an operation without a meaning; no arm does. Safe. -/
  | notModelled (mnemonic : String)
  /-- Raised by `step` for a `CMD` word without an opcode byte or whose payload has not its
  opcode's length: R71 gives such bytes no meaning. Safe (log entry 8). -/
  | commandLength (bytes : List Byte)
  /-- Raised by `step` for an `ESTOP` word 0: R69 gives the port only the word 1. Safe (log
  entry 9). -/
  | noEstopEdge
  deriving DecidableEq, Repr

end Sys2Proof.Machine

namespace Sys2Proof.Machine

/-- The state of the block. Everything but `inbox`, `resOut` and `actOut` is the spec's. -/
structure State where
  /-- The configuration registers (R25). No operation writes them. -/
  cfg : Config
  /-- The port words not yet accepted, oldest first, in the total order of 20_memory.md R49 (the
  model's own: log entry 1). -/
  inbox : List PortWord
  /-- `rx_phase` (R11). -/
  rxPhase : RxPhase
  /-- `rx_idx` (R12), 0 to 46. -/
  rxIdx : Fin 47
  /-- `rx_wbank` (R13). -/
  rxWbank : Bank
  /-- `RXBANK0` (R14). -/
  rxBank0 : List Host.Cell
  /-- `RXBANK1` (R14). -/
  rxBank1 : List Host.Cell
  /-- `frame_ready` (R15). -/
  frameReady : Bool
  /-- `rx_baud` (R16). -/
  rxBaud : BitVec 32
  /-- `SWBUF` (R17). -/
  swBuf : Memory 40
  /-- `sw_count` (R18). -/
  swCount : Nat
  /-- `sw_last_rel` (R19). -/
  swLastRel : Half
  /-- `sw_last_valid` (R19). -/
  swLastValid : Bool
  /-- `SWOUT` (R20). -/
  swOut : Memory 40
  /-- `sw_out_count` (R20). -/
  swOutCount : Nat
  /-- `sweep_ready` (R21). -/
  sweepReady : Bool
  /-- `estopped` (R22): `true` is state `Estopped`. -/
  estopped : Bool
  /-- `act_motor` (R23). -/
  actMotor : Motor
  /-- `act_servo` (R24). -/
  actServo : Servo
  /-- What the `RES` port has carried, oldest first (R203; the model's own: log entry 2). -/
  resOut : List Result
  /-- What the `ACT` port has carried, oldest first (R203; the model's own: log entry 2). -/
  actOut : List ActCall
  deriving DecidableEq, Repr

/-- The state after reset with the configuration record `c` (10_state.md R30; 70_reset_and_hazards.md
R200: reset is "the instant the block comes into existence with its configuration record already
fixed"). The memories are unspecified there: no cell has a value (log entry 6). `sw_last_rel` is
unspecified there: DESIGN CHOICE 0, unsafe (log entry 7). -/
def State.resetWith (c : Config) : State :=
  { cfg := c, inbox := [],
    rxPhase := .idle, rxIdx := 0, rxWbank := .bank0, rxBank0 := [], rxBank1 := [],
    frameReady := false, rxBaud := 0#32,
    swBuf := [], swCount := 0, swLastRel := 0#16, swLastValid := false,
    swOut := [], swOutCount := 0, sweepReady := false,
    estopped := true, actMotor := .none, actServo := .none,
    resOut := [], actOut := [] }

/-- The state after reset with the model's default configuration (log entry 3). -/
def State.reset : State := State.resetWith Config.default

end Sys2Proof.Machine
end

