-- ==== Sys2Proof/Machine/Operands.lean ====
section
/-! DEFINITION. What the operations compute from their operands: the frame fields and the
interpolation of the unpacker (41_decoder.md R114 to R116), the checksum (R112), the relative angle
of the sweep assembler (42_sweep.md R130), the clamp and the trim of the safety gate (43_safety.md
R151, R153, R160), the 40-bit entry (30_encoding.md R66) and the forms of a result (R74). -/

namespace Sys2Proof.Machine

/-- `f[i]` (R6), for `i` below 47. -/
def frameByte (f : Frame) (i : Nat) : Byte := f.bytes.getD i 0#8

/-- The 2-byte field of a frame at offset `off` (R41, R64, R65). -/
def frameHalf (f : Frame) (off : Nat) : Half := u16le (frameByte f off) (frameByte f (off + 1))

/-- Offset of the start angle (R61). -/
def startOffset : Layout → Nat
  | .doc => 2
  | .ld06 => 4

/-- Offset of sub-record 0 (R61). -/
def recordOffset : Layout → Nat
  | .doc => 4
  | .ld06 => 6

/-- Offset of the end angle (R61). -/
def endOffset : Layout → Nat
  | .doc => 40
  | .ld06 => 42

/-- `start_cd` (R114). -/
def startCd (l : Layout) (f : Frame) : Nat := (frameHalf f (startOffset l)).toNat % 36000

/-- `end_cd` (R114). -/
def endCd (l : Layout) (f : Frame) : Nat := (frameHalf f (endOffset l)).toNat % 36000

/-- `span_cd = (end_cd - start_cd) mod 36000` (R115). -/
def spanCd (start stop : Nat) : Nat := (((stop : Int) - (start : Int)) % 36000).toNat

/-- `interp(start_cd, end_cd, i)` (R115). -/
def interp (start stop i : Nat) : Nat := (start + (spanCd start stop * i) / 11) % 36000

/-- Lane `i` of the unpacker (R114, R116): point `i` of the batch. -/
def lane (l : Layout) (f : Frame) (i : Nat) : Point :=
  { angleCd := BitVec.ofNat 16 (interp (startCd l f) (endCd l f) i)
    distMm := frameHalf f (recordOffset l + 3 * i)
    strength := frameByte f (recordOffset l + 3 * i + 2) }

/-- The batch of the unpacker (R111): the 12 lanes in order. -/
def unpack (l : Layout) (f : Frame) : Batch :=
  { points := (List.range 12).map (lane l f), len := by simp }

/-- One bit of R112's loop. -/
def crcShift (poly c : Byte) : Byte := if c.msb then (c <<< 1) ^^^ poly else c <<< 1

/-- `n` bits of R112's loop. -/
def crcShifts (poly : Byte) : Nat → Byte → Byte
  | 0, c => c
  | n + 1, c => crcShifts poly n (crcShift poly c)

/-- One byte of R112's loop. -/
def crcStep (poly c b : Byte) : Byte := crcShifts poly 8 (c ^^^ b)

/-- R112's `crc8` before the final xor, from the value `c`. -/
def crcFold (poly c : Byte) (bs : List Byte) : Byte := bs.foldl (crcStep poly) c

/-- Reverses the bits of a byte where the flag is set (PRESUMED, log entry 5). -/
def reflectIf (flag : Bool) (b : Byte) : Byte := if flag then b.reverse else b

/-- R112's `crc8` with its parameters; with both reflection flags clear it is R112's pseudocode. -/
def crc8 (p : CrcParams) (bs : List Byte) : Byte :=
  reflectIf p.reflectOut (crcFold p.poly p.init (bs.map (reflectIf p.reflectIn))) ^^^ p.xorOut

/-- The checksum function of the configuration (92_eei_decisions.md D3). -/
def checksum (c : Checksum) (bs : List Byte) : Byte :=
  match c with
  | .crc8 p => crc8 p bs
  | .other => Config.otherChecksum bs

/-- The checksum of bytes 0 to 45, the half-open slice `f[0..46)` (R113). -/
def frameChecksum (c : Config) (f : Frame) : Byte := checksum c.checksum (f.bytes.take 46)

/-- `rel(a) = (a - SPAN_START) mod 36000` (R130). -/
def rel (c : Config) (a : Half) : Nat := (((a.toNat : Int) - (c.spanStart : Int)) % 36000).toNat

/-- `clamp(v, lo, hi) = max(lo, min(v, hi))` (R6, R160). -/
def clamp (v lo hi : Int) : Int := max lo (min v hi)

/-- The duty of a motion command (R151, R152): the signed operand clamped to `0..SPEED_CAP`. -/
def duty (c : Config) (power : Half) : Int := clamp power.toInt 0 c.speedCap

/-- The trimmed steering angle (R153): clamp first, then the additive trim, never wrapped. -/
def trimmed (c : Config) (angle : Half) : Int :=
  clamp angle.toInt (-c.maxSteer) c.maxSteer + c.steerBias

/-- The servo position of a steering command (R153). -/
def steerPos (c : Config) (angle : Half) : ServoPos := Config.servoMap (trimmed c angle)

/-- The neutral servo position (R154): commanded angle 0, trimmed and mapped like any other. -/
def neutralPos (c : Config) : ServoPos := Config.servoMap (0 + c.steerBias)

/-- A RangePoint as a 40-bit entry (R66): angle in bits 39:24, distance in 23:8, strength in 7:0. -/
def toEntry (p : Point) : Entry := p.angleCd ++ p.distMm ++ p.strength

/-- The RangePoint in a 40-bit entry (R66). -/
def ofEntry (e : Entry) : Point :=
  ⟨e.extractLsb' 24 16, e.extractLsb' 8 16, e.extractLsb' 0 8⟩

/-- The status code of a `DECODE` result (R74, R170). -/
def statusCode : Result → Option Nat
  | .ok _ => some 0
  | .err .headerMismatch => some 1
  | .err .checksumMismatch => some 2
  | _ => none

/-- A Sweep as `TAKE_SWEEP` puts it on the port (R74): the count byte, then the points. Above 255
points the spec states no count byte: no form (log entry 12). -/
def sweepBytes (s : List Point) : Option (List Byte) :=
  if s.length < 256 then some (BitVec.ofNat 8 s.length :: s.flatMap pointBytes) else none

end Sys2Proof.Machine
end

