-- ==== Sys2Proof/Machine/Flags.lean ====
section
/-! DEFINITION. The tests the operations branch on. The block has no arithmetic condition codes
(10_state.md R27); its status flags are fields of `State`, and these are the conditions that read
them or decide a result. -/

namespace Sys2Proof.Machine

/-- The header check (R111): `f[0] = HEADER`. -/
def headerOk (c : Config) (f : Frame) : Bool := decide (frameByte f 0 = c.header)

/-- The checksum check (R113): the checksum of bytes 0..45 equals byte 46. -/
def checksumOk (c : Config) (f : Frame) : Bool := decide (frameChecksum c f = frameByte f 46)

/-- A payload POINT is a RangePoint (R66, R73 (b)). -/
def legalPoint (p : Point) : Bool := decide (p.angleCd.toNat < 36000)

/-- The point is in the window (R130). -/
def inWindow (c : Config) (p : Point) : Bool := decide (rel c p.angleCd < c.spanWidth)

/-- The wraparound detector (R132): a previous point exists and `p` lies earlier in the turn. -/
def wraps (p : Point) (s : State) : Bool :=
  s.swLastValid && decide (rel s.cfg p.angleCd < s.swLastRel.toNat)

/-- The wrap trigger (R131): a wrap with a non-empty buffer. -/
def closesSweep (p : Point) (s : State) : Bool := wraps p s && decide (0 < s.swCount)

end Sys2Proof.Machine
end

