-- ==== Sys2Proof/Machine/Ops.lean ====
section
/-! DEFINITION. The shared operations over the memories and the state elements. The block takes no
exceptions and returns from none (60_exceptions.md R176, R177): the nearest thing, what a trigger
does on entry, is `publish` (R93) and `neutralise` (R154), shared here. -/

namespace Sys2Proof.Machine

/-! Memories (20_memory.md R40; log entry 6). -/

/-- The value of cell `a`; none where nothing has written it. -/
def Memory.read {w : Nat} : Memory w → Nat → Option (BitVec w)
  | [], _ => none
  | (b, x) :: m, a => if a = b then some x else Memory.read m a

/-- `MemWrite` of one cell (R7); the cells stay strictly rising. -/
def Memory.write {w : Nat} : Memory w → Nat → BitVec w → Memory w
  | [], a, v => [(a, v)]
  | (b, x) :: m, a, v =>
    if a < b then (a, v) :: (b, x) :: m
    else if a = b then (a, v) :: m
    else (b, x) :: Memory.write m a v

/-- The cells are strictly rising and all at `lo` or above and below `size`. -/
def Memory.rising {w : Nat} (size : Nat) : Nat → Memory w → Bool
  | _, [] => true
  | lo, (a, _) :: m => decide (lo ≤ a) && decide (a < size) && Memory.rising size (a + 1) m

/-- The canonical form of a memory of `size` cells: strictly rising cells of the memory. Every
listed cell has a value and an unlisted one has none, so equal memories are equal lists. -/
def Memory.wf {w : Nat} (size : Nat) (m : Memory w) : Bool := Memory.rising size 0 m

/-- `MemRead(space, a, n)` of a memory of `size` cells (R7). -/
def readCells {w : Nat} (sp : Space) (size : Nat) (m : Memory w) :
    Nat → Nat → Except Fault (List (BitVec w))
  | _, 0 => .ok []
  | a, n + 1 =>
    if a < size then
      match m.read a with
      | none => .error (.unwrittenCell sp a)
      | some x =>
        match readCells sp size m (a + 1) n with
        | .ok xs => .ok (x :: xs)
        | .error e => .error e
    else .error (.noSuchCell sp a)

/-- `MemWrite(space, a, n, vs)` of a memory of `size` cells (R7). -/
def writeCells {w : Nat} (sp : Space) (size : Nat) (m : Memory w) :
    Nat → List (BitVec w) → Except Fault (Memory w)
  | _, [] => .ok m
  | a, v :: vs =>
    if a < size then
      writeCells sp size (m.write a v) (a + 1) vs
    else .error (.noSuchCell sp a)

/-! The ports. -/

/-- A word at the `RES` port (R74). -/
def State.pushRes (s : State) (r : Result) : State := { s with resOut := s.resOut ++ [r] }

/-- The words left after the next one is accepted (log entry 1). -/
def State.setInbox (s : State) (ws : List PortWord) : State := { s with inbox := ws }

/-- An illegal command is ignored with result `ILLEGAL` (R73, R74). -/
def illegalCommand (s : State) : State := s.pushRes .illegal

/-! The ingestion buffer. -/

/-- The other bank: `1 - rx_wbank` (R13). -/
def Bank.other : Bank → Bank
  | .bank0 => .bank1
  | .bank1 => .bank0

/-- The memory a bank number names (R40). -/
def Bank.space : Bank → Space
  | .bank0 => .rxbank0
  | .bank1 => .rxbank1

/-- `RXBANK<b>` (R13). -/
def State.bank (s : State) : Bank → List Host.Cell
  | .bank0 => s.rxBank0
  | .bank1 => s.rxBank1

/-- `RXBANK<b>` becomes `m`. -/
def State.setBank (s : State) (b : Bank) (m : List Host.Cell) : State :=
  match b with
  | .bank0 => { s with rxBank0 := m }
  | .bank1 => { s with rxBank1 := m }

/-- Arms a transfer (R90): the phase and the count of stored bytes. -/
def State.armRx (s : State) (ph : RxPhase) (idx : Fin 47) : State :=
  { s with rxPhase := ph, rxIdx := idx }

/-- Writes `frame_ready` (R15). -/
def State.setFrameReady (s : State) (b : Bool) : State := { s with frameReady := b }

/-- Writes `rx_baud` (R16). -/
def State.setBaud (s : State) (v : BitVec 32) : State := { s with rxBaud := v }

/-- Stores one received byte (R92): `MemWrite(RXBANK<rx_wbank>, rx_idx, 1, data)`. -/
def storeByte (d : Byte) (s : State) : State :=
  s.setBank s.rxWbank (Memory.write (s.bank s.rxWbank) s.rxIdx.val d)

/-- `publish()` (R93): the banks are exchanged and the frame is ready. -/
def publish (s : State) : State := { s with rxWbank := s.rxWbank.other, frameReady := true }

/-- A byte in phase FRAME (R92): stored; the 47th is published before the next transfer is armed
(20_memory.md R51). -/
def frameByteReceived (d : Byte) (s : State) : State :=
  if h : s.rxIdx.val = 46 then
    (publish (storeByte d s)).armRx .frame 0
  else
    (storeByte d s).armRx .frame ⟨s.rxIdx.val + 1, by omega⟩

/-- The published bank as a frame (R95): `MemRead(RXBANK<1 - rx_wbank>, 0, 47)`. -/
def publishedFrame (s : State) : Except Fault Frame :=
  match readCells s.rxWbank.other.space 47 (s.bank s.rxWbank.other) 0 47 with
  | .error e => .error e
  | .ok bs =>
    if h : bs.length = 47 then .ok ⟨bs, h⟩
    else .error (.unwrittenCell s.rxWbank.other.space bs.length)

/-! The sweep assembler. -/

/-- The detector remembers the relative angle of the point offered (R131, R132). -/
def State.track (s : State) (r : Nat) : State :=
  { s with swLastRel := BitVec.ofNat 16 r, swLastValid := true }

/-- `SWBUF` and `sw_count` after an append (R133). -/
def State.setBuffer (s : State) (m : Memory 40) (n : Nat) : State :=
  { s with swBuf := m, swCount := n }

/-- What an emission leaves (R134): `SWOUT`, its count, `sweep_ready`, an empty buffer. -/
def State.setSweep (s : State) (m : Memory 40) (n : Nat) : State :=
  { s with swOut := m, swOutCount := n, sweepReady := true, swCount := 0 }

/-- Writes `sweep_ready` (R21). -/
def State.setSweepReady (s : State) (b : Bool) : State := { s with sweepReady := b }

/-- Empties the assembler and its detector (R137). -/
def State.clearSweep (s : State) : State := { s with swCount := 0, swLastValid := false }

/-- `emit()` (R134). -/
def emit (s : State) : Except Fault State :=
  match readCells .swbuf s.cfg.fifoDepth s.swBuf 0 s.swCount with
  | .error e => .error e
  | .ok es =>
    match writeCells .swout s.cfg.fifoDepth s.swOut 0 es with
    | .error e => .error e
    | .ok m => .ok (s.setSweep m s.swCount)

/-- The first half of `ADD_POINT` (R131): a wrap with a non-empty buffer emits. -/
def closeOnWrap (p : Point) (s : State) : Except Fault (State × Nat) :=
  if closesSweep p s then
    match emit s with
    | .error e => .error e
    | .ok t => .ok (t, 1)
  else .ok (s, 0)

/-- The count trigger (R133). -/
def emitIfFull (s : State) : Except Fault (State × Nat) :=
  if s.swCount = s.cfg.nTarget then
    match emit s with
    | .error e => .error e
    | .ok t => .ok (t, 1)
  else .ok (s, 0)

/-- The second half of `ADD_POINT` (R131, R133): a point in the window is appended, and the buffer
is emitted when it then holds `N_TARGET` points. -/
def appendPoint (p : Point) (s : State) : Except Fault (State × Nat) :=
  if inWindow s.cfg p then
    match writeCells .swbuf s.cfg.fifoDepth s.swBuf s.swCount [toEntry p] with
    | .error e => .error e
    | .ok m => emitIfFull (s.setBuffer m (s.swCount + 1))
  else .ok (s, 0)

/-- `ADD_POINT` on a legal point (R131): the new state and the number of Sweeps emitted. -/
def offerPoint (p : Point) (s : State) : Except Fault (State × Nat) :=
  match closeOnWrap p s with
  | .error e => .error e
  | .ok (t, k) =>
    match appendPoint p (t.track (rel s.cfg p.angleCd)) with
    | .error e => .error e
    | .ok (u, j) => .ok (u, k + j)

/-- The points of a batch in index order (R135). -/
def offerPoints : List Point → State → Except Fault (State × Nat)
  | [], s => .ok (s, 0)
  | p :: ps, s =>
    match offerPoint p s with
    | .error e => .error e
    | .ok (t, k) =>
      match offerPoints ps t with
      | .error e => .error e
      | .ok (u, j) => .ok (u, k + j)

/-- The emissions of an `ADD_POINT` or `ADD_BATCH` at the `RES` port (R74). -/
def reportEmitted (r : Except Fault (State × Nat)) : Host.Outcome State Fault Refusal :=
  match r with
  | .ok (t, k) => .next (t.pushRes (.emitted k))
  | .error e => .fault e

/-! The safety layer. -/

/-- A motor call with its mirror (R151, R152, R154). -/
def State.driveMotor (s : State) (c : ActCall) (m : Motor) : State :=
  { s with actMotor := m, actOut := s.actOut ++ [c] }

/-- A steering call with its mirror (R153, R154). -/
def State.driveServo (s : State) (p : ServoPos) : State :=
  { s with actServo := .pos p, actOut := s.actOut ++ [.write p] }

/-- Writes the latch (R150). -/
def State.setEstopped (s : State) (b : Bool) : State := { s with estopped := b }

/-- `set_neutral()` with its mirror (R151). -/
def motorNeutral (s : State) : State := s.driveMotor .setNeutral .neutral

/-- `neutralise()` (R154): steering first, motor second. -/
def neutralise (s : State) : State := motorNeutral (s.driveServo (neutralPos s.cfg))

/-- The body of `TOGGLE_PAUSE` and `ESTOP_EDGE` (R157, R158): neutralise, then flip. -/
def toggleLatch (s : State) : State := (neutralise s).setEstopped (!s.estopped)

end Sys2Proof.Machine
end

