-- ==== Sys2Proof/Machine/Decoder.lean ====
section
/-! DEFINITION. The packet decoder: `DECODE` (41_decoder.md). It has no state. -/

namespace Sys2Proof.Machine

/-- The result of `DECODE f` (R110, R111): header check, checksum check, unpack, in that order. -/
def decodeResult (c : Config) (f : Frame) : Result :=
  if headerOk c f then
    if checksumOk c f then .ok (unpack c.layout f) else .err .checksumMismatch
  else .err .headerMismatch

/-- `DECODE f` (R111): a pure function; only the `RES` port sees it. -/
def execDecode (f : Frame) (s : State) : Host.Outcome State Fault Refusal :=
  .next (s.pushRes (decodeResult s.cfg f))

end Sys2Proof.Machine
end

