-- ==== Sys2Proof/Machine/Gate.lean ====
section
/-! DEFINITION. The actuation safety layer: `SET_FORWARD`, `SET_REVERSE`, `SET_STEERING`, `PAUSE`,
`UNPAUSE`, `TOGGLE_PAUSE`, `ESTOP_EDGE` (43_safety.md). -/

namespace Sys2Proof.Machine

/-- `SET_FORWARD power` (R151). -/
def execSetForward (power : Half) (s : State) : Host.Outcome State Fault Refusal :=
  if s.estopped then .next ((motorNeutral s).pushRes .done)
  else
    .next ((s.driveMotor (.setForwardDuty (duty s.cfg power))
      (.forward (duty s.cfg power))).pushRes .done)

/-- `SET_REVERSE power` (R152). -/
def execSetReverse (power : Half) (s : State) : Host.Outcome State Fault Refusal :=
  if s.estopped then .next ((motorNeutral s).pushRes .done)
  else
    .next ((s.driveMotor (.setReverseDuty (duty s.cfg power))
      (.reverse (duty s.cfg power))).pushRes .done)

/-- `SET_STEERING angle` (R153): frozen while estopped. -/
def execSetSteering (angle : Half) (s : State) : Host.Outcome State Fault Refusal :=
  if s.estopped then .next (s.pushRes .done)
  else .next ((s.driveServo (steerPos s.cfg angle)).pushRes .done)

/-- `PAUSE` (R155). -/
def execPause (s : State) : Host.Outcome State Fault Refusal :=
  .next (((neutralise s).setEstopped true).pushRes .done)

/-- `UNPAUSE` (R156). -/
def execUnpause (s : State) : Host.Outcome State Fault Refusal :=
  .next ((s.setEstopped false).pushRes .done)

/-- `TOGGLE_PAUSE` (R157). -/
def execTogglePause (s : State) : Host.Outcome State Fault Refusal :=
  .next ((toggleLatch s).pushRes .done)

/-- `ESTOP_EDGE` (R158): the body of `TOGGLE_PAUSE`, with no result to anyone. -/
def execEstopEdge (s : State) : Host.Outcome State Fault Refusal := .next (toggleLatch s)

end Sys2Proof.Machine
end

