-- ==== Sys2Proof/Machine/Ingest.lean ====
section
/-! DEFINITION. The ingestion buffer: `BEGIN`, `RX_BYTE`, `RX_ERROR`, `TAKE_FRAME` (40_ingest.md). -/

namespace Sys2Proof.Machine

/-- `BEGIN baud` (R91): from every phase the same restart. -/
def execBegin (baud : BitVec 32) (s : State) : Host.Outcome State Fault Refusal :=
  .next ((((s.setBaud baud).armRx .probe 0).setFrameReady false).pushRes .done)

/-- `RX_BYTE data` (R92): lost before arming, discarded as the probe, stored in a frame. -/
def execRxByte (data : Byte) (s : State) : Host.Outcome State Fault Refusal :=
  match s.rxPhase with
  | .idle => .next s
  | .probe => .next (s.armRx .frame 0)
  | .frame => .next (frameByteReceived data s)

/-- `RX_ERROR` (R94): the next transfer armed is a full one, from cell 0. -/
def execRxError (s : State) : Host.Outcome State Fault Refusal :=
  match s.rxPhase with
  | .idle => .next s
  | .probe => .next (s.armRx .frame 0)
  | .frame => .next (s.armRx .frame 0)

/-- `TAKE_FRAME` (R95): test, copy and clear in one step. -/
def execTakeFrame (s : State) : Host.Outcome State Fault Refusal :=
  if s.frameReady then
    match publishedFrame s with
    | .ok f => .next ((s.setFrameReady false).pushRes (.frame f))
    | .error e => .fault e
  else .next (s.pushRes .noFrame)

end Sys2Proof.Machine
end

