-- ==== Sys2Proof/Machine/Sweep.lean ====
section
/-! DEFINITION. The sweep assembler: `ADD_POINT`, `ADD_BATCH`, `TAKE_SWEEP`, `SWEEP_INVALIDATE`
(42_sweep.md). -/

namespace Sys2Proof.Machine

/-- `ADD_POINT p` (R131); an illegal point is ignored (R73 (b)). -/
def execAddPoint (p : Point) (s : State) : Host.Outcome State Fault Refusal :=
  if legalPoint p then reportEmitted (offerPoint p s) else .next (illegalCommand s)

/-- `ADD_BATCH b` (R135); a batch with any illegal point is ignored whole (R73 (b)). -/
def execAddBatch (b : Batch) (s : State) : Host.Outcome State Fault Refusal :=
  if b.points.all legalPoint then reportEmitted (offerPoints b.points s)
  else .next (illegalCommand s)

/-- `TAKE_SWEEP` (R136): test, copy and clear in one step. -/
def execTakeSweep (s : State) : Host.Outcome State Fault Refusal :=
  if s.sweepReady then
    match readCells .swout s.cfg.fifoDepth s.swOut 0 s.swOutCount with
    | .ok es => .next ((s.setSweepReady false).pushRes (.sweep (es.map ofEntry)))
    | .error e => .fault e
  else .next (s.pushRes .noSweep)

/-- `SWEEP_INVALIDATE` (R137). -/
def execSweepInvalidate (s : State) : Host.Outcome State Fault Refusal :=
  .next (s.clearSweep.pushRes .done)

end Sys2Proof.Machine
end

