-- ==== Sys2Proof/Machine/Dispatch.lean ====
section
/-! DEFINITION. The meaning of every operation, one arm each (30_encoding.md R70). -/

namespace Sys2Proof.Machine

def exec (i : Instr) (s : State) : Host.Outcome State Fault Refusal :=
  match i with
  | .rxByte data => Sys2Proof.Machine.execRxByte data s
  | .rxError => Sys2Proof.Machine.execRxError s
  | .estopEdge => Sys2Proof.Machine.execEstopEdge s
  | .beginRx baud => Sys2Proof.Machine.execBegin baud s
  | .takeFrame => Sys2Proof.Machine.execTakeFrame s
  | .decodeFrame f => Sys2Proof.Machine.execDecode f s
  | .addBatch b => Sys2Proof.Machine.execAddBatch b s
  | .takeSweep => Sys2Proof.Machine.execTakeSweep s
  | .sweepInvalidate => Sys2Proof.Machine.execSweepInvalidate s
  | .addPoint p => Sys2Proof.Machine.execAddPoint p s
  | .setForward power => Sys2Proof.Machine.execSetForward power s
  | .setReverse power => Sys2Proof.Machine.execSetReverse power s
  | .setSteering angle => Sys2Proof.Machine.execSetSteering angle s
  | .pause => Sys2Proof.Machine.execPause s
  | .unpause => Sys2Proof.Machine.execUnpause s
  | .togglePause => Sys2Proof.Machine.execTogglePause s

end Sys2Proof.Machine
end

