-- ==== Sys2Proof/Machine/Step.lean ====
section
/-! DEFINITION. One step: the next port word is accepted, decoded and run as one indivisible
operation (20_memory.md R47, R49). -/

namespace Sys2Proof.Machine

/-- The step of the block. With no word waiting nothing arrives and nothing changes: the block
never halts (70_reset_and_hazards.md R203; log entry 1). -/
def step (s : State) : Host.Outcome State Fault Refusal :=
  match s.inbox with
  | [] => .next s
  | w :: ws =>
    match decode w with
    | .instr i => exec i (s.setInbox ws)
    | .illegalOpcode _ => .next (illegalCommand (s.setInbox ws))
    | .wrongLength bytes => .refused (.commandLength bytes)
    | .noEdge => .refused .noEstopEdge

/-- The state in which the next word accepted is the one a row of the opcode table stands for with
the bits `w`: the word put first in the inbox (log entry 1). -/
def State.withFetchWord (s : State) (nbits w : Nat) : State :=
  s.setInbox (tableWord nbits w :: s.inbox)

end Sys2Proof.Machine
end

