-- ==== Sys2Proof/Machine/Pseudo.lean ====
section
/-! DEFINITION. Runs of operations and the pseudo-operations of 30_encoding.md R77, R78. The others
of R78's table are the operation of the same name. -/

namespace Sys2Proof.Machine

/-- Operations executed one after the other, in the order of the list (20_memory.md R49). -/
def execAll : List Instr → State → Host.Outcome State Fault Refusal
  | [], s => .next s
  | i :: is, s =>
    match exec i s with
    | .next t => execAll is t
    | .fault e => .fault e
    | .refused r => .refused r

/-- `RX_FRAME f`: 47 `RX_BYTE` operations in byte order (R77). -/
def rxFrame (f : Frame) : List Instr := f.bytes.map .rxByte

/-- The last word at the `RES` port: the result of the `CMD` operation just executed (R69). -/
def State.lastResult (s : State) : Option Result := s.resOut.getLast?

/-- The end of a consumer cycle: `TAKE_SWEEP` if the batch emitted one (R78). -/
def pollSweep (s : State) : Host.Outcome State Fault Refusal :=
  match s.lastResult with
  | some (.emitted k) => if 0 < k then exec .takeSweep s else .next s
  | _ => .next s

/-- The middle of a consumer cycle: `ADD_BATCH` of a decoded batch; on an error the assembler is not
touched (R78). -/
def pollBatch (s : State) : Host.Outcome State Fault Refusal :=
  match s.lastResult with
  | some (.ok b) =>
    match exec (.addBatch b) s with
    | .next t => pollSweep t
    | r => r
  | _ => .next s

/-- The rest of a consumer cycle after `TAKE_FRAME` (R78). -/
def pollFrame (s : State) : Host.Outcome State Fault Refusal :=
  match s.lastResult with
  | some (.frame f) =>
    match exec (.decodeFrame f) s with
    | .next t => pollBatch t
    | r => r
  | _ => .next s

/-- `POLL`, one consumer cycle with no event of another agent between its operations (R78: they are
separate steps, so events may fall between them; such runs are other orders of the inbox). -/
def poll (s : State) : Host.Outcome State Fault Refusal :=
  match exec .takeFrame s with
  | .next t => pollFrame t
  | r => r

end Sys2Proof.Machine
end

