-- ==== Sys2Proof/Safety.lean ====
section
/-! DEFINITION. What the statements about runs are phrased in: the points the assembler holds and
has emitted, the invariant of 10_state.md R29 with the clauses that make it inductive, and what a
driver call may be (43_safety.md R159). -/

namespace Sys2Proof

/-- The configuration record with another reference point (R139), legal like the first. -/
def Config.withRef (c : Config) (q : Point) (h : q.angleCd.toNat < 36000) : Config :=
  { toParams := { c.toParams with refPoint := q },
    isLegal := by
      have := c.isLegal
      simp only [Params.legal, Bool.and_eq_true, decide_eq_true_eq] at this ⊢
      exact ⟨this.1, h⟩ }

end Sys2Proof

namespace Sys2Proof.Machine

/-- Cells 0 to `n - 1` have a value. -/
def Memory.filled {w : Nat} (m : Memory w) (n : Nat) : Prop := ∀ a, a < n → (m.read a).isSome = true

/-- The points in cells 0 to `n - 1` of a point memory. -/
def Memory.points (m : Memory 40) (n : Nat) : List Point :=
  (List.range n).map fun a => ofEntry ((m.read a).getD 0#40)

/-- The points accumulated for the sweep in progress (R17). -/
def State.held (s : State) : List Point := Memory.points s.swBuf s.swCount

/-- The points of the most recently emitted Sweep (R20). -/
def State.emittedSweep (s : State) : List Point := Memory.points s.swOut s.swOutCount

/-- The points a result carries in a Sweep. -/
def Result.sweepPoints : Result → List Point
  | .sweep ps => ps
  | _ => []

/-- The memory of the published bank (R13). -/
def State.published (s : State) : List Host.Cell := s.bank s.rxWbank.other

/-- RangePoints in the window whose relative angles do not decrease (R29 (d), (e), R66). -/
structure InOrder (c : Config) (ps : List Point) : Prop where
  legal  : ∀ p ∈ ps, p.wellFormed = true
  window : ∀ p ∈ ps, rel c p.angleCd < c.spanWidth
  sorted : ps.Pairwise fun p q => rel c p.angleCd ≤ rel c q.angleCd

/-- A motor mirror that R29 (g) allows. -/
def motorOk (c : Config) : Motor → Prop
  | .none => True
  | .neutral => True
  | .forward v => 0 ≤ v ∧ v ≤ c.speedCap
  | .reverse v => 0 ≤ v ∧ v ≤ c.speedCap

/-- A servo position that a steering angle within the limits gives (R159 (d)). -/
def servoOk (c : Config) (p : ServoPos) : Prop :=
  ∃ t : Int, -c.maxSteer + c.steerBias ≤ t ∧ t ≤ c.maxSteer + c.steerBias ∧ p = Config.servoMap t

/-- A driver call that R159 (c), (d), (e) allow. -/
def callOk (c : Config) : ActCall → Prop
  | .write p => servoOk c p
  | .setForwardDuty v => 0 ≤ v ∧ v ≤ c.speedCap
  | .setReverseDuty v => 0 ≤ v ∧ v ≤ c.speedCap
  | .setNeutral => True
  | .arm => False

/-- The only calls allowed while estopped (R159 (a)). -/
def neutralCall (c : Config) (a : ActCall) : Prop := a = .setNeutral ∨ a = .write (neutralPos c)

/-- What holds in every reachable state: R29 (a) to (g) (of (b) what one
state shows: the cells have values), the canonical form of the four memories,
and the strengthenings that make it inductive (the cells of a partial transfer have values, R28;
every call made so far is one R159 allows). -/
structure BlockInv (s : State) : Prop where
  /-- R29 (a). -/
  idxZero : s.rxPhase ≠ .frame → s.rxIdx = 0
  /-- The bytes of the transfer in progress are stored (R28 (a)). -/
  partialFilled : Memory.filled (s.bank s.rxWbank) s.rxIdx.val
  /-- Of R29 (b): all 47 cells of the published bank have values. That one completed transfer wrote
  them and nothing since is a rule about runs, not a property of one state. -/
  publishedFilled : s.frameReady = true → Memory.filled s.published 47
  /-- R29 (c). -/
  countLt : s.swCount < s.cfg.nTarget
  /-- R17: the accumulated entries have values. -/
  bufFilled : Memory.filled s.swBuf s.swCount
  /-- R29 (d). -/
  heldOrder : InOrder s.cfg s.held
  /-- R29 (d). -/
  heldValid : 0 < s.swCount → s.swLastValid = true
  /-- R29 (d). -/
  heldLast : ∀ p ∈ s.held, rel s.cfg p.angleCd ≤ s.swLastRel.toNat
  /-- R19. -/
  lastRelLt : s.swLastRel.toNat < 36000
  /-- R29 (e). -/
  sweepCount : s.sweepReady = true → 1 ≤ s.swOutCount ∧ s.swOutCount ≤ s.cfg.nTarget
  /-- R20: the emitted entries have values. -/
  sweepFilled : s.sweepReady = true → Memory.filled s.swOut s.swOutCount
  /-- R29 (e). -/
  sweepOrder : s.sweepReady = true → InOrder s.cfg s.emittedSweep
  /-- R29 (f). -/
  estopMotor : s.estopped = true → s.actMotor = .none ∨ s.actMotor = .neutral
  /-- R29 (g). -/
  motorBound : motorOk s.cfg s.actMotor
  /-- R159 (d). -/
  servoBound : ∀ p, s.actServo = .pos p → servoOk s.cfg p
  /-- R159 (c), (d), (e). -/
  callsOk : ∀ a ∈ s.actOut, callOk s.cfg a
  /-- The canonical form of `RXBANK0` and `RXBANK1`. -/
  banksWf : Memory.wf 47 s.rxBank0 = true ∧ Memory.wf 47 s.rxBank1 = true
  /-- The canonical form of `SWBUF` and `SWOUT`. -/
  sweepMemWf : Memory.wf s.cfg.fifoDepth s.swBuf = true ∧ Memory.wf s.cfg.fifoDepth s.swOut = true

/-- The same outcome with its next state changed by `g`. -/
def mapNext (g : State → State) :
    Host.Outcome State Fault Refusal → Host.Outcome State Fault Refusal
  | .next s => .next (g s)
  | .fault e => .fault e
  | .refused r => .refused r

end Sys2Proof.Machine
end

