-- ==== Sys2Proof/Certificates/Slice0/Obligations.lean ====
section
/-! DEFINITION. The statements about the model, for the provers. Each docstring names the rule of
spec/ it rests on, and says where a clause is the model's own choice. -/

open Sys2Proof Sys2Proof.Machine

/-! Encodings and ports (30_encoding.md). -/

/-- Decode and encode agree on every operation with every operand (R66, R69 to R72; the zero data
bits of `RX_ERROR`'s word are the model's, log entry 10). -/
def Obligations.DecodeEncodeRoundTrip : Prop := ∀ i : Instr, decode (encode i) = .instr i

/-- Words written out from R69 to R72 decode to their operations (the vectors V-E1, V-E2, V-E7,
V-E9, V-E10, V-E12, V-E16 to V-E18 of 95_test_vectors.md among them). -/
def Obligations.WrittenWordsDecode : Prop :=
  decode (.rx 0x054#9) = .instr (.rxByte 0x54#8) ∧
  decode (.rx 0x100#9) = .instr .rxError ∧
  decode (.estop 1#1) = .instr .estopEdge ∧
  decode (.cmd [0x01#8, 0x00#8, 0x84#8, 0x03#8, 0x00#8]) = .instr (.beginRx 230400#32) ∧
  decode (.cmd [0x02#8]) = .instr .takeFrame ∧
  decode (.cmd [0x05#8]) = .instr .takeSweep ∧
  decode (.cmd [0x07#8, 0x1B#8, 0x00#8, 0xF9#8, 0x01#8, 0x64#8]) =
    .instr (.addPoint ⟨27#16, 505#16, 100#8⟩) ∧
  decode (.cmd [0x10#8, 0x28#8, 0x23#8]) = .instr (.setForward 9000#16) ∧
  decode (.cmd [0x10#8, 0xFB#8, 0xFF#8]) = .instr (.setForward (BitVec.ofInt 16 (-5))) ∧
  decode (.cmd [0x12#8, 0x88#8, 0x13#8]) = .instr (.setSteering 5000#16) ∧
  decode (.cmd [0x18#8]) = .instr .pause

/-- R71: the opcode alone determines the payload length; a `CMD` word is an operation exactly when
its payload has that length. -/
def Obligations.PayloadLengthOfOpcode : Prop :=
  ∀ (op : Byte) (p : List Byte),
    (∃ i, decode (.cmd (op :: p)) = .instr i) ↔
      (op ∈ [0x02#8, 0x05#8, 0x06#8, 0x18#8, 0x19#8, 0x1A#8] ∧ p.length = 0) ∨
      (op ∈ [0x10#8, 0x11#8, 0x12#8] ∧ p.length = 2) ∨
      (op = 0x01#8 ∧ p.length = 4) ∨ (op = 0x07#8 ∧ p.length = 5) ∨
      (op = 0x03#8 ∧ p.length = 47) ∨ (op = 0x04#8 ∧ p.length = 60)

/-- R73 (a), (b): an illegal command is ignored with result `ILLEGAL`: a word whose opcode is none
of the thirteen (taking that word as ignored and not refusing it is the model's choice, log entry
8), a POINT or a batch with an angle of 36000 or more. -/
def Obligations.IllegalCommandsIgnored : Prop :=
  (∀ (s : State) (op : Byte) (p : List Byte) (ws : List PortWord),
    s.inbox = .cmd (op :: p) :: ws →
    op ∉ [0x01#8, 0x02#8, 0x03#8, 0x04#8, 0x05#8, 0x06#8, 0x07#8, 0x10#8, 0x11#8, 0x12#8, 0x18#8,
      0x19#8, 0x1A#8] →
    step s = .next { s with inbox := ws, resOut := s.resOut ++ [.illegal] }) ∧
  (∀ (s : State) (p : Point), 36000 ≤ p.angleCd.toNat →
    exec (.addPoint p) s = .next { s with resOut := s.resOut ++ [.illegal] }) ∧
  (∀ (s : State) (b : Batch) (p : Point), p ∈ b.points → 36000 ≤ p.angleCd.toNat →
    exec (.addBatch b) s = .next { s with resOut := s.resOut ++ [.illegal] })

/-- The words the model refuses by name (log entries 8 and 9): a `CMD` word without an opcode, a
legal opcode with a payload that makes no operation, an `ESTOP` word 0. -/
def Obligations.WordsWithoutMeaningRefused : Prop :=
  (∀ (s : State) (ws : List PortWord), s.inbox = .cmd [] :: ws →
    step s = .refused (.commandLength [])) ∧
  (∀ (s : State) (op : Byte) (p : List Byte) (ws : List PortWord),
    s.inbox = .cmd (op :: p) :: ws →
    op ∈ [0x01#8, 0x02#8, 0x03#8, 0x04#8, 0x05#8, 0x06#8, 0x07#8, 0x10#8, 0x11#8, 0x12#8, 0x18#8,
      0x19#8, 0x1A#8] →
    (¬ ∃ i, decode (.cmd (op :: p)) = .instr i) →
    step s = .refused (.commandLength (op :: p))) ∧
  (∀ (s : State) (ws : List PortWord), s.inbox = .estop 0#1 :: ws →
    step s = .refused .noEstopEdge)

/-- R180: each port carries only its agent's operations. -/
def Obligations.OperationsOfEachPort : Prop :=
  (∀ w : BitVec 9, (∃ d, decode (.rx w) = .instr (.rxByte d)) ∨ decode (.rx w) = .instr .rxError) ∧
  (∀ (w : BitVec 1) (i : Instr), decode (.estop w) = .instr i → i = .estopEdge) ∧
  (∀ (bs : List Byte) (i : Instr), decode (.cmd bs) = .instr i →
    (∀ d, i ≠ .rxByte d) ∧ i ≠ .rxError ∧ i ≠ .estopEdge)

/-- A step accepts the next port word and runs exactly its operation, which leaves the words behind
it alone (R47, R49, R69; the inbox is the model's, log entry 1). -/
def Obligations.StepRunsDecodedOperation : Prop :=
  ∀ (s : State) (w : PortWord) (ws : List PortWord) (i : Instr),
    s.inbox = w :: ws → decode w = .instr i →
    step s = exec i { s with inbox := ws } ∧
      ∀ t, step s = .next t → t.inbox = ws

/-- With no word waiting nothing changes (R203; the model's choice, log entry 1). -/
def Obligations.EmptyInboxChangesNothing : Prop := ∀ s : State, s.inbox = [] → step s = .next s

/-- R74: every command puts exactly one word on `RES`, of the form its row gives; the producer's and
the estop trigger's operations put none. -/
def Obligations.OneResultPerCommand : Prop :=
  ∀ (i : Instr) (s t : State), exec i s = .next t →
    match i with
    | .rxByte _ | .rxError | .estopEdge => t.resOut = s.resOut
    | .beginRx _ | .sweepInvalidate | .setForward _ | .setReverse _ | .setSteering _ | .pause
    | .unpause | .togglePause => t.resOut = s.resOut ++ [.done]
    | .takeFrame => t.resOut = s.resOut ++ [.noFrame] ∨ ∃ f, t.resOut = s.resOut ++ [.frame f]
    | .decodeFrame _ => (∃ b, t.resOut = s.resOut ++ [.ok b]) ∨
        ∃ e, t.resOut = s.resOut ++ [.err e]
    | .addPoint _ | .addBatch _ => t.resOut = s.resOut ++ [.illegal] ∨
        ∃ k, t.resOut = s.resOut ++ [.emitted k]
    | .takeSweep => t.resOut = s.resOut ++ [.noSweep] ∨ ∃ ps, t.resOut = s.resOut ++ [.sweep ps]

/-- R74, R170: the status codes of a `DECODE` result, and a Sweep on the port as its count byte and
its points in their 5-byte form (for up to 255 points: log entry 12). -/
def Obligations.ResultForms : Prop :=
  (∀ b, statusCode (.ok b) = some 0) ∧
  statusCode (.err .headerMismatch) = some 1 ∧ statusCode (.err .checksumMismatch) = some 2 ∧
  ∀ ps : List Point, ps.length ≤ 255 →
    ∃ n bs, sweepBytes ps = some (n :: bs) ∧ n.toNat = ps.length ∧ bs.length = 5 * ps.length ∧
      pointsOfBytes bs = some ps

/-! Reset and configuration (10_state.md R25, R30). -/

/-- R30: every element after reset, whatever the configuration record; what R30 leaves unspecified
is left unsaid. -/
def Obligations.ResetState : Prop :=
  ∀ c : Config,
    (State.resetWith c).cfg = c ∧
    (State.resetWith c).rxPhase = .idle ∧ (State.resetWith c).rxIdx.val = 0 ∧
    (State.resetWith c).rxWbank = .bank0 ∧ (State.resetWith c).frameReady = false ∧
    (State.resetWith c).rxBaud = 0#32 ∧ (State.resetWith c).swCount = 0 ∧
    (State.resetWith c).swLastValid = false ∧ (State.resetWith c).swOutCount = 0 ∧
    (State.resetWith c).sweepReady = false ∧ (State.resetWith c).estopped = true ∧
    (State.resetWith c).actMotor = .none ∧ (State.resetWith c).actServo = .none ∧
    (State.resetWith c).actOut = []

/-- R4, R25: a record that violates a constraint is not built; any other is built as it is. -/
def Obligations.ConfigOutsideConstraintsNotBuilt : Prop :=
  ∀ p : Params,
    (Config.build p = none ↔
      35999 < p.spanStart ∨ p.spanWidth < 1 ∨ 36000 < p.spanWidth ∨ p.nTarget < 1 ∨
      p.fifoDepth < p.nTarget ∨ p.speedCap < 0 ∨ 32767 < p.speedCap ∨ p.maxSteer < 0 ∨
      32767 < p.maxSteer ∨ p.steerBias < -32768 ∨ 32767 < p.steerBias ∨
      36000 ≤ p.refPoint.angleCd.toNat) ∧
    ∀ c, Config.build p = some c → c.toParams = p

/-! Whole-machine rules. -/

/-- R10's table and R25: each element is written only by the operations listed with it; no operation
writes the configuration registers. -/
def Obligations.ElementsWrittenOnlyByTheirOperations : Prop :=
  ∀ (i : Instr) (s t : State), exec i s = .next t →
    t.cfg = s.cfg ∧ t.inbox = s.inbox ∧
    (t.rxPhase ≠ s.rxPhase ∨ t.rxIdx ≠ s.rxIdx →
      (∃ v, i = .beginRx v) ∨ (∃ d, i = .rxByte d) ∨ i = .rxError) ∧
    (t.rxWbank ≠ s.rxWbank ∨ t.rxBank0 ≠ s.rxBank0 ∨ t.rxBank1 ≠ s.rxBank1 →
      ∃ d, i = .rxByte d) ∧
    (t.frameReady ≠ s.frameReady →
      (∃ d, i = .rxByte d) ∨ i = .takeFrame ∨ ∃ v, i = .beginRx v) ∧
    (t.rxBaud ≠ s.rxBaud → ∃ v, i = .beginRx v) ∧
    (t.swBuf ≠ s.swBuf ∨ t.swLastRel ≠ s.swLastRel ∨ t.swOut ≠ s.swOut ∨
        t.swOutCount ≠ s.swOutCount →
      (∃ p, i = .addPoint p) ∨ ∃ b, i = .addBatch b) ∧
    (t.swCount ≠ s.swCount ∨ t.swLastValid ≠ s.swLastValid →
      (∃ p, i = .addPoint p) ∨ (∃ b, i = .addBatch b) ∨ i = .sweepInvalidate) ∧
    (t.sweepReady ≠ s.sweepReady →
      (∃ p, i = .addPoint p) ∨ (∃ b, i = .addBatch b) ∨ i = .takeSweep) ∧
    (t.estopped ≠ s.estopped →
      i = .pause ∨ i = .unpause ∨ i = .togglePause ∨ i = .estopEdge) ∧
    (t.actMotor ≠ s.actMotor →
      (∃ v, i = .setForward v) ∨ (∃ v, i = .setReverse v) ∨ i = .pause ∨ i = .togglePause ∨
        i = .estopEdge) ∧
    (t.actServo ≠ s.actServo →
      (∃ v, i = .setSteering v) ∨ i = .pause ∨ i = .togglePause ∨ i = .estopEdge) ∧
    (t.actOut ≠ s.actOut →
      (∃ v, i = .setForward v) ∨ (∃ v, i = .setReverse v) ∨ (∃ v, i = .setSteering v) ∨
        i = .pause ∨ i = .togglePause ∨ i = .estopEdge)

/-- R16, R23, R24, R139: no operation reads `rx_baud`, the two actuator mirrors or `REF_POINT`: a
change of one of them changes nothing else in what an operation does (an operation that writes the
element excepted). -/
def Obligations.BaudMirrorsAndReferenceReadByNothing : Prop :=
  (∀ (i : Instr) (s : State) (v : BitVec 32), (∀ x, i ≠ .beginRx x) →
    exec i { s with rxBaud := v } = mapNext (fun t => { t with rxBaud := v }) (exec i s)) ∧
  (∀ (x : BitVec 32) (s : State) (v : BitVec 32),
    exec (.beginRx x) { s with rxBaud := v } = exec (.beginRx x) s) ∧
  (∀ (i : Instr) (s t : State) (m : Motor), exec i s = .next t →
    exec i { s with actMotor := m } = .next t ∨
      (t.actMotor = s.actMotor ∧ exec i { s with actMotor := m } = .next { t with actMotor := m })) ∧
  (∀ (i : Instr) (s t : State) (m : Servo), exec i s = .next t →
    exec i { s with actServo := m } = .next t ∨
      (t.actServo = s.actServo ∧ exec i { s with actServo := m } = .next { t with actServo := m })) ∧
  (∀ (i : Instr) (s : State) (q : Point) (h : q.angleCd.toNat < 36000),
    exec i { s with cfg := s.cfg.withRef q h } =
      mapNext (fun t => { t with cfg := s.cfg.withRef q h }) (exec i s))

/-- R183: the producer and the estop trigger share nothing: their events commute. -/
def Obligations.ProducerAndEstopCommute : Prop :=
  ∀ (i : Instr) (s : State), ((∃ d, i = .rxByte d) ∨ i = .rxError) →
    execAll [i, .estopEdge] s = execAll [.estopEdge, i] s ∧
      ∃ t, execAll [i, .estopEdge] s = .next t

/-! The ingestion buffer (40_ingest.md). -/

/-- R91: `BEGIN` restarts the receiver from every state; nothing else changes. -/
def Obligations.BeginRestartsReceiver : Prop :=
  (∀ b0 b1 b2 b3 : Byte, ∃ baud : BitVec 32,
    decode (.cmd [0x01#8, b0, b1, b2, b3]) = .instr (.beginRx baud) ∧
    baud.toNat = b0.toNat + 256 * b1.toNat + 65536 * b2.toNat + 16777216 * b3.toNat) ∧
  ∀ (baud : BitVec 32) (s : State),
    exec (.beginRx baud) s = .next { s with
      rxBaud := baud, rxPhase := .probe, rxIdx := 0, frameReady := false
      resOut := s.resOut ++ [.done] }

/-- R92, R93: a byte is lost in IDLE, discarded as the probe, stored in FRAME; the 47th exchanges the
banks and sets `frame_ready`, also when it was set. Every other cell and element is unchanged. -/
def Obligations.RxByteReceives : Prop :=
  (∀ d : Byte, decode (.rx (0#1 ++ d)) = .instr (.rxByte d)) ∧
  ∀ (d : Byte) (s : State),
    (s.rxPhase = .idle → exec (.rxByte d) s = .next s) ∧
    (s.rxPhase = .probe → exec (.rxByte d) s = .next { s with rxPhase := .frame, rxIdx := 0 }) ∧
    (s.rxPhase = .frame → ∃ t, exec (.rxByte d) s = .next t ∧
      t = { s with
        rxIdx := t.rxIdx, rxWbank := t.rxWbank, rxBank0 := t.rxBank0, rxBank1 := t.rxBank1
        frameReady := t.frameReady } ∧
      (∀ a, Memory.read (t.bank s.rxWbank) a =
        if a = s.rxIdx.val then some d else Memory.read (s.bank s.rxWbank) a) ∧
      t.bank s.rxWbank.other = s.bank s.rxWbank.other ∧
      (s.rxIdx.val ≠ 46 → t.rxIdx.val = s.rxIdx.val + 1 ∧ t.rxWbank = s.rxWbank ∧
        t.frameReady = s.frameReady) ∧
      (s.rxIdx.val = 46 → t.rxIdx.val = 0 ∧ t.rxWbank = s.rxWbank.other ∧ t.frameReady = true))

/-- R94: `RX_ERROR` arms a full transfer and changes nothing else: no callback, the bank contents
and a pending frame as they were; in IDLE it changes nothing. -/
def Obligations.RxErrorRearms : Prop :=
  (∀ d : Byte, decode (.rx (1#1 ++ d)) = .instr .rxError) ∧
  ∀ s : State,
    (s.rxPhase = .idle → exec .rxError s = .next s) ∧
    (s.rxPhase ≠ .idle → exec .rxError s = .next { s with rxPhase := .frame, rxIdx := 0 })

/-- R95: `TAKE_FRAME` returns the 47 bytes of the published bank and clears the flag, or returns
`none` and changes nothing. -/
def Obligations.TakeFrameReturnsPublishedFrame : Prop :=
  decode (.cmd [0x02#8]) = .instr .takeFrame ∧
  ∀ s : State,
    (s.frameReady = false →
      exec .takeFrame s = .next { s with resOut := s.resOut ++ [.noFrame] }) ∧
    (∀ f : Frame, s.frameReady = true →
      (∀ a, a < 47 → Memory.read (s.bank s.rxWbank.other) a = some (f.bytes.getD a 0#8)) →
      exec .takeFrame s = .next { s with
        frameReady := false, resOut := s.resOut ++ [.frame f] })

/-- R48: a successful take is destructive: the same call repeated returns `none` and changes nothing
else; a take that returned `none` leaves every element but the `RES` port as it was. -/
def Obligations.SecondTakeFindsNothing : Prop :=
  (∀ s t : State, exec .takeFrame s = .next t →
    exec .takeFrame t = .next { t with resOut := t.resOut ++ [.noFrame] } ∧
    (s.frameReady = false → t = { s with resOut := s.resOut ++ [.noFrame] })) ∧
  (∀ s t : State, exec .takeSweep s = .next t →
    exec .takeSweep t = .next { t with resOut := t.resOut ++ [.noSweep] } ∧
    (s.sweepReady = false → t = { s with resOut := s.resOut ++ [.noSweep] }))

/-- R96 (b), R77: the 47 bytes of a whole frame, received from an empty transfer, are published as
that frame, and `TAKE_FRAME` returns exactly those bytes; the bank published before is not
touched. -/
def Obligations.ReceivedFrameIsTaken : Prop :=
  ∀ (f : Frame) (s : State), s.rxPhase = .frame → s.rxIdx = 0 →
    ∃ t, execAll (rxFrame f) s = .next t ∧
      t = { s with
        rxWbank := s.rxWbank.other, rxBank0 := t.rxBank0, rxBank1 := t.rxBank1
        frameReady := true } ∧
      t.bank s.rxWbank.other = s.bank s.rxWbank.other ∧
      exec .takeFrame t = .next { t with
        frameReady := false, resOut := s.resOut ++ [.frame f] }

/-- R94 (a), (b), V-I5: the bytes of a transfer that ends in an error are never part of a frame. After
the error the receiver has the count, the bank number, the ready flag and the published bank it had
before those bytes, every other element too; and the next whole frame is the one taken. -/
def Obligations.ErrorDiscardsPartialTransfer : Prop :=
  ∀ (ds : List Byte) (f : Frame) (s : State), ds.length < 47 → s.rxPhase = .frame → s.rxIdx = 0 →
    (∃ u, execAll (ds.map .rxByte ++ [.rxError]) s = .next u ∧
      u = { s with rxBank0 := u.rxBank0, rxBank1 := u.rxBank1 } ∧
      u.bank s.rxWbank.other = s.bank s.rxWbank.other) ∧
    ∃ t, execAll (ds.map .rxByte ++ .rxError :: rxFrame f) s = .next t ∧
      exec .takeFrame t = .next { t with
        frameReady := false, resOut := s.resOut ++ [.frame f] }

/-- R93, V-I4: of two frames completed with no take in between the later is taken and the earlier is
lost. -/
def Obligations.OlderFrameOverwritten : Prop :=
  ∀ (f g : Frame) (s : State), s.rxPhase = .frame → s.rxIdx = 0 →
    ∃ t, execAll (rxFrame f ++ rxFrame g ++ [.takeFrame, .takeFrame]) s = .next t ∧
      t.resOut = s.resOut ++ [.frame g, .noFrame] ∧ t.rxWbank = s.rxWbank

/-! The packet decoder (41_decoder.md). -/

/-- R111, R113, R114, R115: `DECODE` checks the header, then the checksum of bytes 0..45 against byte
46, then unpacks: each of the 12 points has its own record's distance and strength and the
interpolated angle. Nothing but the `RES` port changes. -/
def Obligations.DecodeChecksAndUnpacks : Prop :=
  ∀ (f : Frame) (s : State), decode (.cmd (0x03#8 :: f.bytes)) = .instr (.decodeFrame f) ∧ ∃ r,
    exec (.decodeFrame f) s = .next { s with resOut := s.resOut ++ [r] } ∧
    (f.bytes.getD 0 0#8 ≠ s.cfg.header → r = .err .headerMismatch) ∧
    (f.bytes.getD 0 0#8 = s.cfg.header →
      checksum s.cfg.checksum (f.bytes.take 46) ≠ f.bytes.getD 46 0#8 →
      r = .err .checksumMismatch) ∧
    (f.bytes.getD 0 0#8 = s.cfg.header →
      checksum s.cfg.checksum (f.bytes.take 46) = f.bytes.getD 46 0#8 →
      ∃ b : Batch, r = .ok b ∧
        ∀ oStart oRec oEnd : Nat,
          ((s.cfg.layout = .doc ∧ oStart = 2 ∧ oRec = 4 ∧ oEnd = 40) ∨
            (s.cfg.layout = .ld06 ∧ oStart = 4 ∧ oRec = 6 ∧ oEnd = 42)) →
          ∀ start stop span : Nat,
            start = ((f.bytes.getD oStart 0#8).toNat +
              256 * (f.bytes.getD (oStart + 1) 0#8).toNat) % 36000 →
            stop = ((f.bytes.getD oEnd 0#8).toNat +
              256 * (f.bytes.getD (oEnd + 1) 0#8).toNat) % 36000 →
            (span : Int) = ((stop : Int) - (start : Int)) % 36000 →
            ∀ i, i < 12 → ∃ p, b.points[i]? = some p ∧
              p.angleCd.toNat = (start + span * i / 11) % 36000 ∧
              p.distMm.toNat = (f.bytes.getD (oRec + 3 * i) 0#8).toNat +
                256 * (f.bytes.getD (oRec + 3 * i + 1) 0#8).toNat ∧
              p.strength = f.bytes.getD (oRec + 3 * i + 2) 0#8)

/-- R117 (b), (c): the 12 angles of a decoded batch are in 0..35999; going round from the first in
the direction of increasing angle they do not decrease, and none passes the last. -/
def Obligations.DecodedAnglesInOrder : Prop :=
  ∀ (f : Frame) (s t : State) (b : Batch), exec (.decodeFrame f) s = .next t →
    t.resOut = s.resOut ++ [.ok b] →
    ∃ a : Nat → Nat,
      (∀ i, i < 12 → (b.points.map fun p => p.angleCd.toNat)[i]? = some (a i) ∧ a i < 36000) ∧
      ∀ i j, i ≤ j → j < 12 →
        ((a i : Int) - (a 0 : Int)) % 36000 ≤ ((a j : Int) - (a 0 : Int)) % 36000 ∧
        ((a j : Int) - (a 0 : Int)) % 36000 ≤ ((a 11 : Int) - (a 0 : Int)) % 36000

/-- R112: the algorithm as it is written there, a loop of eight shift-and-xor rounds a byte from
`CRC_INIT` with `CRC_XOROUT` at the end, for every polynomial, initial value and final xor without
reflection; the default parameters and the first row of their table; and R112's laws: no bytes and
zero bytes give 0, the residue law, linearity over xor, and the table form. -/
def Obligations.CrcLaws : Prop :=
  Config.default.checksum = .crc8 ⟨0x4D#8, 0x00#8, 0x00#8, false, false⟩ ∧
  (List.range 16).map (fun x => checksum Config.default.checksum [BitVec.ofNat 8 x]) =
    [0x00#8, 0x4D#8, 0x9A#8, 0xD7#8, 0x79#8, 0x34#8, 0xE3#8, 0xAE#8, 0xF2#8, 0xBF#8, 0x68#8, 0x25#8,
      0x8B#8, 0xC6#8, 0x11#8, 0x5C#8] ∧
  ∀ (poly : Byte) (round : Byte → Byte),
    (∀ x, round x = if x.getLsbD 7 = true then (x <<< 1) ^^^ poly else x <<< 1) →
    (∀ (init xorOut : Byte) (bs : List Byte),
      checksum (.crc8 ⟨poly, init, xorOut, false, false⟩) bs =
        bs.foldl (fun x b => round^[8] (x ^^^ b)) init ^^^ xorOut) ∧
    ∀ c : List Byte → Byte, c = checksum (.crc8 ⟨poly, 0#8, 0#8, false, false⟩) →
      (∀ b, c [b] = round^[8] b) ∧ c [0x01#8] = poly ∧
      c [] = 0#8 ∧ (∀ n, c (List.replicate n 0#8) = 0#8) ∧
      (∀ bs, c (bs ++ [c bs]) = 0#8) ∧
      (∀ as bs : List Byte, as.length = bs.length →
        c (List.zipWith (· ^^^ ·) as bs) = c as ^^^ c bs) ∧
      (∀ bs, c bs = bs.foldl (fun x b => c [x ^^^ b]) 0#8)

/-- R117, last sentence: altering only byte 46 of a valid frame gives `ChecksumMismatch`, altering
only byte 0 gives `HeaderMismatch`. -/
def Obligations.AlteredFrameRejected : Prop :=
  ∀ (f g : Frame) (s : State) (b : Batch) (v : Byte),
    exec (.decodeFrame f) s = .next { s with resOut := s.resOut ++ [.ok b] } →
    (g.bytes = f.bytes.set 46 v → v ≠ f.bytes.getD 46 0#8 →
      exec (.decodeFrame g) s = .next { s with resOut := s.resOut ++ [.err .checksumMismatch] }) ∧
    (g.bytes = f.bytes.set 0 v → v ≠ f.bytes.getD 0 0#8 →
      exec (.decodeFrame g) s = .next { s with resOut := s.resOut ++ [.err .headerMismatch] })

/-- R111 (c): 47 zero bytes are rejected by the header test for any non-zero `HEADER`, though a CRC of
R112's form passes them. -/
def Obligations.ZeroFrameRejected : Prop :=
  ∀ (f : Frame) (s : State) (poly : Byte), f.bytes = List.replicate 47 0#8 →
    s.cfg.header ≠ 0#8 →
    exec (.decodeFrame f) s = .next { s with resOut := s.resOut ++ [.err .headerMismatch] } ∧
    (s.cfg.checksum = .crc8 ⟨poly, 0#8, 0#8, false, false⟩ →
      frameChecksum s.cfg f = f.bytes.getD 46 0#8)

/-! The sweep assembler (42_sweep.md). -/

/-- R130 to R134: `ADD_POINT` on the lists of accumulated and emitted points. An illegal point is
ignored. A wrap closes a
non-empty buffer before the point is considered; a point in the window is appended; a buffer of
`N_TARGET` points is emitted. `k` is 0 or 1. The cells stored to are `SWBUF[base]` and, by an
emission, the first cells of `SWOUT`; every other cell and element is unchanged. -/
def Obligations.AddPointOnPointLists : Prop :=
  (∀ a0 a1 d0 d1 st : Byte, decode (.cmd [0x07#8, a0, a1, d0, d1, st]) =
    .instr (.addPoint ⟨a1 ++ a0, d1 ++ d0, st⟩)) ∧
  (∀ (p : Point) (s : State), 36000 ≤ p.angleCd.toNat →
    exec (.addPoint p) s = .next { s with resOut := s.resOut ++ [.illegal] }) ∧
  ∀ (p : Point) (s : State) (r : Nat) (wrapped : Bool) (base now : List Point),
    p.angleCd.toNat < 36000 → s.swCount < s.cfg.nTarget → Memory.filled s.swBuf s.swCount →
    (r : Int) = ((p.angleCd.toNat : Int) - (s.cfg.spanStart : Int)) % 36000 →
    (wrapped = true ↔ s.swLastValid = true ∧ r < s.swLastRel.toNat ∧ 0 < s.swCount) →
    base = (if wrapped = true then [] else s.held) →
    now = (if r < s.cfg.spanWidth then base ++ [p] else base) →
    ∃ t k, exec (.addPoint p) s = .next t ∧
      t = { s with
        swBuf := t.swBuf, swCount := t.swCount, swLastRel := BitVec.ofNat 16 r, swLastValid := true
        swOut := t.swOut, swOutCount := t.swOutCount, sweepReady := t.sweepReady
        resOut := s.resOut ++ [.emitted k] } ∧
      (∀ a, t.swBuf.read a =
        if r < s.cfg.spanWidth ∧ a = base.length then some (toEntry p) else s.swBuf.read a) ∧
      (now.length = s.cfg.nTarget →
        k = 1 ∧ t.held = [] ∧ t.emittedSweep = now ∧ t.sweepReady = true ∧
        ∀ a, s.cfg.nTarget ≤ a → t.swOut.read a = s.swOut.read a) ∧
      (now.length ≠ s.cfg.nTarget → wrapped = true →
        k = 1 ∧ t.held = now ∧ t.emittedSweep = s.held ∧ t.sweepReady = true ∧
        ∀ a, s.swCount ≤ a → t.swOut.read a = s.swOut.read a) ∧
      (now.length ≠ s.cfg.nTarget → wrapped = false →
        k = 0 ∧ t.held = now ∧ t.swOut = s.swOut ∧ t.swOutCount = s.swOutCount ∧
        t.sweepReady = s.sweepReady)

/-- R135: `ADD_BATCH` is its twelve `ADD_POINT`s in index order in one step; its result is the sum of
theirs. A batch with any illegal point is ignored whole. -/
def Obligations.AddBatchIsTwelveAddPoints : Prop :=
  (∀ b : Batch, decode (.cmd (0x04#8 :: b.points.flatMap pointBytes)) = .instr (.addBatch b)) ∧
  (∀ (b : Batch) (s : State), (∃ p ∈ b.points, 36000 ≤ p.angleCd.toNat) →
    exec (.addBatch b) s = .next { s with resOut := s.resOut ++ [.illegal] }) ∧
  ∀ (b : Batch) (s : State), (∀ p ∈ b.points, p.angleCd.toNat < 36000) →
    s.swCount < s.cfg.nTarget → Memory.filled s.swBuf s.swCount →
    ∃ (u : State) (ks : List Nat),
      execAll (b.points.map .addPoint) s = .next u ∧ ks.length = 12 ∧
      u.resOut = s.resOut ++ ks.map .emitted ∧
      exec (.addBatch b) s = .next { u with resOut := s.resOut ++ [.emitted ks.sum] }

/-- R136: `TAKE_SWEEP` returns the emitted points in order and clears the flag, or returns `none` and
changes nothing. -/
def Obligations.TakeSweepReturnsEmittedSweep : Prop :=
  decode (.cmd [0x05#8]) = .instr .takeSweep ∧
  ∀ s : State,
    (s.sweepReady = false →
      exec .takeSweep s = .next { s with resOut := s.resOut ++ [.noSweep] }) ∧
    (s.sweepReady = true → s.swOutCount ≤ s.cfg.fifoDepth → Memory.filled s.swOut s.swOutCount →
      exec .takeSweep s = .next { s with
        sweepReady := false, resOut := s.resOut ++ [.sweep s.emittedSweep] })

/-- R137: `SWEEP_INVALIDATE` empties the assembler and its detector and touches nothing else. -/
def Obligations.SweepInvalidateEmptiesAssembler : Prop :=
  decode (.cmd [0x06#8]) = .instr .sweepInvalidate ∧
  ∀ s : State, exec .sweepInvalidate s = .next { s with
    swCount := 0, swLastValid := false, resOut := s.resOut ++ [.done] }

/-- R138 (c): one pass of points with non-decreasing relative angle that puts exactly `N_TARGET`
points in the window, from an empty assembler whatever its detector remembers, emits exactly one
Sweep, of those points in order, and leaves the assembler empty; a second such pass, which may begin
with a wrap on the empty buffer, emits a second independent Sweep. -/
def Obligations.OnePassEmitsOneSweep : Prop :=
  (∀ (ps : List Point) (s : State),
    (∀ p ∈ ps, p.angleCd.toNat < 36000) →
    ps.Pairwise (fun p q => rel s.cfg p.angleCd ≤ rel s.cfg q.angleCd) →
    (ps.filter fun p => decide (rel s.cfg p.angleCd < s.cfg.spanWidth)).length = s.cfg.nTarget →
    s.swCount = 0 →
    ∃ (t : State) (ks : List Nat), execAll (ps.map .addPoint) s = .next t ∧
      t.resOut = s.resOut ++ ks.map .emitted ∧ ks.sum = 1 ∧ t.swCount = 0 ∧
      t.sweepReady = true ∧ t.swOutCount = s.cfg.nTarget ∧
      t.emittedSweep = ps.filter fun p => decide (rel s.cfg p.angleCd < s.cfg.spanWidth)) ∧
  ∀ (ps qs : List Point) (s : State),
    (∀ p ∈ ps ++ qs, p.angleCd.toNat < 36000) →
    ps.Pairwise (fun p q => rel s.cfg p.angleCd ≤ rel s.cfg q.angleCd) →
    qs.Pairwise (fun p q => rel s.cfg p.angleCd ≤ rel s.cfg q.angleCd) →
    (ps.filter fun p => decide (rel s.cfg p.angleCd < s.cfg.spanWidth)).length = s.cfg.nTarget →
    (qs.filter fun p => decide (rel s.cfg p.angleCd < s.cfg.spanWidth)).length = s.cfg.nTarget →
    s.swCount = 0 →
    ∃ (t u : State) (js ks : List Nat),
      execAll (ps.map .addPoint) s = .next t ∧ execAll (qs.map .addPoint) t = .next u ∧
      t.resOut = s.resOut ++ js.map .emitted ∧ js.sum = 1 ∧
      u.resOut = t.resOut ++ ks.map .emitted ∧ ks.sum = 1 ∧ u.swCount = 0 ∧
      u.sweepReady = true ∧ u.swOutCount = s.cfg.nTarget ∧
      t.emittedSweep = (ps.filter fun p => decide (rel s.cfg p.angleCd < s.cfg.spanWidth)) ∧
      u.emittedSweep = qs.filter fun p => decide (rel s.cfg p.angleCd < s.cfg.spanWidth)

/-- R138 (e): no loss inside the assembler. A consumer that takes after every point finds every point
in the window, in order, in the Sweeps it takes or still in the buffer, and finds each once. A Sweep
that was ready before comes first, whole, or was replaced before it was taken. -/
def Obligations.NoOfferedPointLost : Prop :=
  ∀ (ps : List Point) (s : State), BlockInv s →
    (∀ p ∈ ps, p.angleCd.toNat < 36000) →
    ∃ (t : State) (out : List Result) (older : List Point),
      execAll (ps.flatMap fun p => [.addPoint p, .takeSweep]) s = .next t ∧
      t.resOut = s.resOut ++ out ∧
      (older = [] ∨ (s.sweepReady = true ∧ older = s.emittedSweep)) ∧
      out.flatMap Result.sweepPoints ++ t.held =
        older ++ s.held ++ ps.filter fun p => decide (rel s.cfg p.angleCd < s.cfg.spanWidth)

/-! The actuation safety layer (43_safety.md). -/

/-- R151: `SET_FORWARD` forces neutral while estopped and otherwise forwards the clamped duty. -/
def Obligations.SetForwardClampsOrNeutral : Prop :=
  (∀ p0 p1 : Byte, decode (.cmd [0x10#8, p0, p1]) = .instr (.setForward (p1 ++ p0))) ∧
  ∀ (power : Half) (s : State),
    (s.estopped = true → exec (.setForward power) s = .next { s with
      actMotor := .neutral, actOut := s.actOut ++ [.setNeutral]
      resOut := s.resOut ++ [.done] }) ∧
    (s.estopped = false → exec (.setForward power) s = .next { s with
      actMotor := .forward (max 0 (min power.toInt s.cfg.speedCap))
      actOut := s.actOut ++ [.setForwardDuty (max 0 (min power.toInt s.cfg.speedCap))]
      resOut := s.resOut ++ [.done] })

/-- R152: `SET_REVERSE` forces neutral while estopped and otherwise reverses with the clamped duty. -/
def Obligations.SetReverseClampsOrNeutral : Prop :=
  (∀ p0 p1 : Byte, decode (.cmd [0x11#8, p0, p1]) = .instr (.setReverse (p1 ++ p0))) ∧
  ∀ (power : Half) (s : State),
    (s.estopped = true → exec (.setReverse power) s = .next { s with
      actMotor := .neutral, actOut := s.actOut ++ [.setNeutral]
      resOut := s.resOut ++ [.done] }) ∧
    (s.estopped = false → exec (.setReverse power) s = .next { s with
      actMotor := .reverse (max 0 (min power.toInt s.cfg.speedCap))
      actOut := s.actOut ++ [.setReverseDuty (max 0 (min power.toInt s.cfg.speedCap))]
      resOut := s.resOut ++ [.done] })

/-- R153: `SET_STEERING` is a no-op while estopped and otherwise writes the map of the clamped, then
trimmed angle. -/
def Obligations.SetSteeringClampsTrimsOrFrozen : Prop :=
  (∀ p0 p1 : Byte, decode (.cmd [0x12#8, p0, p1]) = .instr (.setSteering (p1 ++ p0))) ∧
  ∀ (angle : Half) (s : State) (q : ServoPos),
    q = Config.servoMap
      (max (-s.cfg.maxSteer) (min angle.toInt s.cfg.maxSteer) + s.cfg.steerBias) →
    (s.estopped = true → exec (.setSteering angle) s = .next { s with
      resOut := s.resOut ++ [.done] }) ∧
    (s.estopped = false → exec (.setSteering angle) s = .next { s with
      actServo := .pos q, actOut := s.actOut ++ [.write q], resOut := s.resOut ++ [.done] })

/-- R154, R155: `PAUSE` neutralises, steering first and motor second, and sets the latch, in both
states. -/
def Obligations.PauseNeutralisesAndLatches : Prop :=
  decode (.cmd [0x18#8]) = .instr .pause ∧
  ∀ (s : State) (q : ServoPos), q = Config.servoMap (0 + s.cfg.steerBias) →
    exec .pause s = .next { s with
      estopped := true, actServo := .pos q, actMotor := .neutral
      actOut := s.actOut ++ [.write q, .setNeutral], resOut := s.resOut ++ [.done] }

/-- R156: `UNPAUSE` clears the latch only; no call, the mirrors as they were. -/
def Obligations.UnpauseClearsLatchOnly : Prop :=
  decode (.cmd [0x19#8]) = .instr .unpause ∧
  ∀ s : State, exec .unpause s = .next { s with
    estopped := false, resOut := s.resOut ++ [.done] }

/-- R157: `TOGGLE_PAUSE` neutralises and then flips the latch; twice in a row it makes the two neutral
calls twice and leaves the latch as it was. -/
def Obligations.TogglePauseNeutralisesAndFlips : Prop :=
  decode (.cmd [0x1A#8]) = .instr .togglePause ∧
  ∀ (s : State) (q : ServoPos), q = Config.servoMap (0 + s.cfg.steerBias) →
    exec .togglePause s = .next { s with
      estopped := !s.estopped, actServo := .pos q, actMotor := .neutral
      actOut := s.actOut ++ [.write q, .setNeutral], resOut := s.resOut ++ [.done] } ∧
    execAll [.togglePause, .togglePause] s = .next { s with
      actServo := .pos q, actMotor := .neutral
      actOut := s.actOut ++ [.write q, .setNeutral, .write q, .setNeutral]
      resOut := s.resOut ++ [.done, .done] }

/-- R158: `ESTOP_EDGE` does exactly what `TOGGLE_PAUSE` does to state and calls, and returns nothing to
anyone; an even number of edges leaves the latch where it was. -/
def Obligations.EstopEdgeTogglesWithoutResult : Prop :=
  decode (.estop 1#1) = .instr .estopEdge ∧
  ∀ (s : State) (q : ServoPos), q = Config.servoMap (0 + s.cfg.steerBias) →
    exec .estopEdge s = .next { s with
      estopped := !s.estopped, actServo := .pos q, actMotor := .neutral
      actOut := s.actOut ++ [.write q, .setNeutral] } ∧
    (∀ t, exec .estopEdge s = .next t →
      exec .togglePause s = .next { t with resOut := s.resOut ++ [.done] }) ∧
    ∀ n : Nat, ∃ t, execAll (List.replicate (2 * n) .estopEdge) s = .next t ∧
      t.estopped = s.estopped

/-- R150: the state machine of the latch: set at reset; what every operation makes of `estopped`, only
`PAUSE`, `UNPAUSE`, `TOGGLE_PAUSE` and `ESTOP_EDGE` changing it; the motion and latch operations are
valid in every state. -/
def Obligations.LatchStateMachine : Prop :=
  (∀ c : Config, (State.resetWith c).estopped = true) ∧
  (∀ (i : Instr) (s t : State), exec i s = .next t →
    t.estopped = match i with
      | .pause => true
      | .unpause => false
      | .togglePause | .estopEdge => !s.estopped
      | _ => s.estopped) ∧
  ∀ (i : Instr) (s : State),
    (∃ v, i = .setForward v) ∨ (∃ v, i = .setReverse v) ∨ (∃ v, i = .setSteering v) ∨
      i = .pause ∨ i = .unpause ∨ i = .togglePause ∨ i = .estopEdge →
    ∃ t, exec i s = .next t

/-- R159 (a) to (f), for one operation: a call while estopped is neutral; the step that sets the latch
calls `set_neutral()`; every call is within the limits and none is `arm()`; the step that leaves
Estopped makes only neutral calls. -/
def Obligations.GateCallsAreSafe : Prop :=
  ∀ (i : Instr) (s t : State), exec i s = .next t →
    ∃ calls, t.actOut = s.actOut ++ calls ∧
      (s.estopped = true → ∀ a ∈ calls, neutralCall s.cfg a) ∧
      (s.estopped = false → t.estopped = true → .setNeutral ∈ calls ∧ t.actMotor = .neutral) ∧
      (∀ a ∈ calls, callOk s.cfg a) ∧
      (s.estopped = true → t.estopped = false →
        calls = [] ∨ calls = [.write (neutralPos s.cfg), .setNeutral])

/-- R150, R159 (a), (f): in a run from Estopped with no `UNPAUSE`, `TOGGLE_PAUSE` or `ESTOP_EDGE` the
block stays Estopped and every call it makes is neutral, whatever the agents issue. -/
def Obligations.EstoppedRunStaysNeutral : Prop :=
  ∀ (is : List Instr) (s t : State),
    (∀ i ∈ is, i ≠ .unpause ∧ i ≠ .togglePause ∧ i ≠ .estopEdge) →
    s.estopped = true → execAll is s = .next t →
    t.estopped = true ∧ ∃ calls, t.actOut = s.actOut ++ calls ∧ ∀ a ∈ calls, neutralCall s.cfg a

/-- R175 (d), P5: an estop edge against a steering and a forward command, in all three orders: the
final state is Estopped, motor and steering neutral; the calls made are those of each order. -/
def Obligations.EstopRaceEndsNeutral : Prop :=
  ∀ (angle power : Half) (s : State) (q r : ServoPos) (v : Int), s.estopped = false →
    q = Config.servoMap (0 + s.cfg.steerBias) →
    r = Config.servoMap
      (max (-s.cfg.maxSteer) (min angle.toInt s.cfg.maxSteer) + s.cfg.steerBias) →
    v = max 0 (min power.toInt s.cfg.speedCap) →
    execAll [.estopEdge, .setSteering angle, .setForward power] s = .next { s with
      estopped := true, actServo := .pos q, actMotor := .neutral
      actOut := s.actOut ++ [.write q, .setNeutral, .setNeutral]
      resOut := s.resOut ++ [.done, .done] } ∧
    execAll [.setSteering angle, .estopEdge, .setForward power] s = .next { s with
      estopped := true, actServo := .pos q, actMotor := .neutral
      actOut := s.actOut ++ [.write r, .write q, .setNeutral, .setNeutral]
      resOut := s.resOut ++ [.done, .done] } ∧
    execAll [.setSteering angle, .setForward power, .estopEdge] s = .next { s with
      estopped := true, actServo := .pos q, actMotor := .neutral
      actOut := s.actOut ++ [.write r, .setForwardDuty v, .write q, .setNeutral]
      resOut := s.resOut ++ [.done, .done] }

/-- R160: the laws of the clamp, and the trimmed angle never wraps. -/
def Obligations.ClampAndTrimArithmetic : Prop :=
  (∀ v lo hi : Int, lo ≤ hi →
    clamp (clamp v lo hi) lo hi = clamp v lo hi ∧
    (lo ≤ v → v ≤ hi → clamp v lo hi = v) ∧ (v < lo → clamp v lo hi = lo) ∧
    (hi < v → clamp v lo hi = hi)) ∧
  (∀ v w lo hi : Int, lo ≤ hi → v ≤ w → clamp v lo hi ≤ clamp w lo hi) ∧
  (∀ (c : Config) (angle : Half), -65535 ≤ trimmed c angle ∧ trimmed c angle ≤ 65534)

/-! The invariant (10_state.md R29) and that every operation completes (60_exceptions.md R173). -/

/-- The reset state satisfies the invariant, whatever the configuration record. Of R29 (b) the
invariant says that the 47 cells have values (RxByteReceives and PublishedBankChangesOnlyByCompletion
say who writes them). -/
def Obligations.ResetSatisfiesInvariant : Prop :=
  (∀ c : Config, BlockInv (State.resetWith c)) ∧ BlockInv State.reset

/-- R29 with the canonical form of the memories, of R29 (b) that the 47 cells of the published bank
have values: every step keeps the invariant. -/
def Obligations.StepKeepsInvariant : Prop :=
  ∀ s t : State, BlockInv s → step s = .next t → BlockInv t

/-- R173, R40: from every state of the invariant every one of the sixteen operations is accepted and
completes; no access is out of range and none reads an unwritten cell. -/
def Obligations.EveryOperationCompletes : Prop :=
  ∀ (i : Instr) (s : State), BlockInv s → ∃ t, exec i s = .next t ∧ BlockInv t

/-- R173: from every state of the invariant a step never faults; it refuses only a port word that is
no operation and no illegal command (log entries 8 and 9). -/
def Obligations.StepNeverFaults : Prop :=
  ∀ s : State, BlockInv s →
    (∃ t, step s = .next t) ∨
      ∃ w ws, s.inbox = w :: ws ∧
        ((∃ bytes, decode w = .wrongLength bytes ∧ step s = .refused (.commandLength bytes)) ∨
          (decode w = .noEdge ∧ step s = .refused .noEstopEdge))

/-- The model's choice (log entry 6), where its memory faults arise. A take of a frame or a Sweep
faults exactly when it is ready and one of its cells is absent or has no value. `ADD_POINT` of a legal
point faults exactly when a wrap emits a buffer with such a cell, or, without a wrap, a point in the
window has no cell to go to or fills a buffer with a cell that has no value; `ADD_BATCH` of legal
points exactly when one of its `ADD_POINT`s does. No other operation faults. -/
def Obligations.MissingCellsFault : Prop :=
  (∀ s : State, (∃ e, exec .takeFrame s = .fault e) ↔
    s.frameReady = true ∧ ∃ a, a < 47 ∧ Memory.read (s.bank s.rxWbank.other) a = none) ∧
  (∀ s : State, (∃ e, exec .takeSweep s = .fault e) ↔
    s.sweepReady = true ∧
      ∃ a, a < s.swOutCount ∧ (s.cfg.fifoDepth ≤ a ∨ s.swOut.read a = none)) ∧
  (∀ (p : Point) (s : State) (wrapped : Bool),
    (wrapped = true ↔ s.swLastValid = true ∧ rel s.cfg p.angleCd < s.swLastRel.toNat ∧
      0 < s.swCount) →
    ((∃ e, exec (.addPoint p) s = .fault e) ↔
      p.angleCd.toNat < 36000 ∧
        ((wrapped = true ∧
            ∃ a, a < s.swCount ∧ (s.cfg.fifoDepth ≤ a ∨ s.swBuf.read a = none)) ∨
          (wrapped = false ∧ rel s.cfg p.angleCd < s.cfg.spanWidth ∧
            (s.cfg.fifoDepth ≤ s.swCount ∨
              (s.swCount + 1 = s.cfg.nTarget ∧ ∃ a, a < s.swCount ∧ s.swBuf.read a = none)))))) ∧
  (∀ (p : Point) (s : State), p.angleCd.toNat < 36000 → s.swLastValid = false →
    rel s.cfg p.angleCd < s.cfg.spanWidth → s.cfg.fifoDepth ≤ s.swCount →
    exec (.addPoint p) s = .fault (.noSuchCell .swbuf s.swCount)) ∧
  (∀ (b : Batch) (s : State), (∃ e, exec (.addBatch b) s = .fault e) ↔
    (∀ p ∈ b.points, p.angleCd.toNat < 36000) ∧
      ∃ e, execAll (b.points.map .addPoint) s = .fault e) ∧
  (∀ (i : Instr) (s : State) (e : Fault), exec i s = .fault e →
    i = .takeFrame ∨ i = .takeSweep ∨ (∃ p, i = .addPoint p) ∨ ∃ b, i = .addBatch b)

/-- R78: one consumer cycle, with no event of another agent between its operations (the model's choice,
log entry 14). With no frame pending it is the `TAKE_FRAME`; on a decode error the frame is discarded,
the error is reported, and the assembler and the actuators are not touched. -/
def Obligations.PollStopsAtError : Prop :=
  ∀ s : State,
    (s.frameReady = false → poll s = .next { s with resOut := s.resOut ++ [.noFrame] }) ∧
    (∀ (f : Frame) (e : DecodeError),
      exec .takeFrame s = .next { s with frameReady := false, resOut := s.resOut ++ [.frame f] } →
      decodeResult s.cfg f = .err e →
      poll s = .next { s with frameReady := false, resOut := s.resOut ++ [.frame f, .err e] })

/-- R78: the main path of a consumer cycle, with no event of another agent between its operations (the
model's choice, log entry 14). A frame that decodes is fed to the assembler, which never calls its
batch illegal, and the Sweep is taken exactly when one was emitted; from every state of the invariant
the cycle completes. -/
def Obligations.PollDecodesAssemblesAndTakes : Prop :=
  (∀ (s u : State) (f : Frame) (b : Batch),
    exec .takeFrame s = .next { s with frameReady := false, resOut := s.resOut ++ [.frame f] } →
    exec (.decodeFrame f) { s with frameReady := false, resOut := s.resOut ++ [.frame f] } =
      .next { s with frameReady := false, resOut := s.resOut ++ [.frame f, .ok b] } →
    exec (.addBatch b)
      { s with frameReady := false, resOut := s.resOut ++ [.frame f, .ok b] } = .next u →
    ∃ k, u.resOut = s.resOut ++ [.frame f, .ok b, .emitted k] ∧
      poll s = if 0 < k then exec .takeSweep u else .next u) ∧
  ∀ s : State, BlockInv s → ∃ t, poll s = .next t ∧ BlockInv t

/-- R29 (b), R93, R96 (a): the published bank is written by nothing and exchanged only by the `RX_BYTE`
that completes a transfer, which sets `frame_ready`. -/
def Obligations.PublishedBankChangesOnlyByCompletion : Prop :=
  ∀ (i : Instr) (s t : State), exec i s = .next t →
    t.published = s.published ∨
      ((∃ d, i = .rxByte d) ∧ s.rxPhase = .frame ∧ s.rxIdx.val = 46 ∧
        t.rxWbank = s.rxWbank.other ∧ t.frameReady = true)

/-- The model's choice (log entry 3): `State.reset` is the reset state for one record: R4's defaults,
and for the parameters without one the values of 95_test_vectors.md and the zero point. -/
def Obligations.ResetUsesDefaultRecord : Prop :=
  State.reset = State.resetWith Config.default ∧
  Config.default.toParams =
    { header := 0x54#8, checksum := .crc8 ⟨0x4D#8, 0x00#8, 0x00#8, false, false⟩, layout := .doc
      spanStart := 0, spanWidth := 36000, nTarget := 24, fifoDepth := 24
      refPoint := ⟨0#16, 0#16, 0#8⟩, speedCap := 3000, maxSteer := 2400, steerBias := -150 }
end

