-- ==== Sys2Proof/Laws/Decode.lean ====
section
/-! SUPPORT. The small laws of the decoder and the encoder: the byte order of a field and its
inverse, the points of a payload, the lengths of R71. -/

namespace Sys2Proof

/-- The two bytes of a field give the field back (20_memory.md R41). -/
@[simp] theorem u16le_halfBytes (h : Half) :
    u16le (h.extractLsb' 0 8) (h.extractLsb' 8 8) = h := by
  unfold u16le
  ext i hi
  rw [← BitVec.getLsbD_eq_getElem]
  refine (BitVec.getLsbD_append (x := h.extractLsb' 8 8) (y := h.extractLsb' 0 8)).trans ?_
  by_cases h8 : i < 8
  · simp [h8, BitVec.getLsbD_eq_getElem, hi]
  · simp [h8, show i - 8 < 8 by omega, show 8 + (i - 8) = i by omega, BitVec.getLsbD_eq_getElem, hi]

/-- The four bytes of `baud` give `baud` back (R72). -/
@[simp] theorem u32le_wordBytes (v : BitVec 32) :
    u32le (v.extractLsb' 0 8) (v.extractLsb' 8 8) (v.extractLsb' 16 8) (v.extractLsb' 24 8) = v := by
  unfold u32le
  ext i hi
  rw [← BitVec.getLsbD_eq_getElem]
  refine (BitVec.getLsbD_append (x := v.extractLsb' 24 8 ++ v.extractLsb' 16 8)
    (y := v.extractLsb' 8 8 ++ v.extractLsb' 0 8)).trans ?_
  simp only [BitVec.getLsbD_append, BitVec.getLsbD_extractLsb']
  by_cases h8 : i < 8
  · simp [h8, show i < 16 by omega, BitVec.getLsbD_eq_getElem, hi]
  · by_cases h16 : i < 16
    · simp [h8, h16, show i - 8 < 8 by omega, show 8 + (i - 8) = i by omega,
        BitVec.getLsbD_eq_getElem, hi]
    · by_cases h24 : i < 24
      · simp [h16, show i - 16 < 8 by omega, show 16 + (i - 16) = i by omega,
          BitVec.getLsbD_eq_getElem, hi]
      · simp [h16, show ¬ i - 16 < 8 by omega, show i - 16 - 8 < 8 by omega,
          show 24 + (i - 16 - 8) = i by omega, BitVec.getLsbD_eq_getElem, hi]

@[simp] theorem pointBytes_length (p : Point) : (pointBytes p).length = 5 := rfl

/-- The serialised points of a payload give the points back (R66). -/
@[simp] theorem pointsOfBytes_flatMap (ps : List Point) :
    pointsOfBytes (ps.flatMap pointBytes) = some ps := by
  induction ps with
  | nil => rfl
  | cons p ps ih =>
    simp [pointBytes, halfBytes, pointsOfBytes, ih]

/-- A payload of points is 5 bytes for each of them (R66). -/
theorem pointsOfBytes_length {bs : List Byte} {ps : List Point}
    (h : pointsOfBytes bs = some ps) : bs.length = 5 * ps.length := by
  induction ps generalizing bs with
  | nil =>
    match bs, h with
    | [], _ => rfl
    | [_], h => simp [pointsOfBytes] at h
    | [_, _], h => simp [pointsOfBytes] at h
    | [_, _, _], h => simp [pointsOfBytes] at h
    | [_, _, _, _], h => simp [pointsOfBytes] at h
    | a :: b :: c :: d :: e :: rest, h =>
      simp only [pointsOfBytes] at h
      split at h <;> simp at h
  | cons p ps ih =>
    match bs, h with
    | [], h => simp [pointsOfBytes] at h
    | [_], h => simp [pointsOfBytes] at h
    | [_, _], h => simp [pointsOfBytes] at h
    | [_, _, _], h => simp [pointsOfBytes] at h
    | [_, _, _, _], h => simp [pointsOfBytes] at h
    | a :: b :: c :: d :: e :: rest, h =>
      simp only [pointsOfBytes] at h
      split at h
      · rename_i qs hqs
        simp only [Option.some.injEq, List.cons.injEq] at h
        obtain ⟨-, rfl⟩ := h
        have := ih hqs
        simp only [List.length_cons]
        omega
      · simp at h

/-- The opcodes of R70. -/
def opcodes : List Byte :=
  [0x01#8, 0x02#8, 0x03#8, 0x04#8, 0x05#8, 0x06#8, 0x07#8, 0x10#8, 0x11#8, 0x12#8, 0x18#8, 0x19#8,
    0x1A#8]

/-- An opcode outside R70 has no payload length. -/
theorem payloadLen_none {op : Byte} (h : op ∉ opcodes) : payloadLen op = none := by
  simp only [opcodes, List.mem_cons, List.not_mem_nil, or_false, not_or] at h
  obtain ⟨h1, h2, h3, h4, h5, h6, h7, h8, h9, h10, h11, h12, h13⟩ := h
  rw [payloadLen, if_neg h1, if_neg h2, if_neg h3, if_neg h4, if_neg h5, if_neg h6, if_neg h7, if_neg h8, if_neg h9, if_neg h10, if_neg h11, if_neg h12, if_neg h13]

/-- An opcode outside R70 is no operation. -/
theorem assemble_none {op : Byte} (p : List Byte) (h : op ∉ opcodes) : assemble op p = none := by
  simp only [opcodes, List.mem_cons, List.not_mem_nil, or_false, not_or] at h
  obtain ⟨h1, h2, h3, h4, h5, h6, h7, h8, h9, h10, h11, h12, h13⟩ := h
  rw [assemble, if_neg h1, if_neg h2, if_neg h3, if_neg h4, if_neg h5, if_neg h6, if_neg h7, if_neg h8, if_neg h9, if_neg h10, if_neg h11, if_neg h12, if_neg h13]

/-- An opcode of R70 has a payload length. -/
theorem payloadLen_some {op : Byte} (h : op ∈ opcodes) : ∃ n, payloadLen op = some n := by
  simp only [opcodes, List.mem_cons, List.not_mem_nil, or_false] at h
  rcases h with rfl | rfl | rfl | rfl | rfl | rfl | rfl | rfl | rfl | rfl | rfl | rfl | rfl <;> exact ⟨_, rfl⟩

/-- Everything `assemble` can answer with: one case per opcode of R70. -/
theorem assemble_cases {op : Byte} {p : List Byte} {i : Instr} (h : assemble op p = some i) :
    (op = 0x01#8 ∧ operandC4 p = some i) ∨
    (op = 0x02#8 ∧ operandC0 .takeFrame p = some i) ∨
    (op = 0x03#8 ∧ operandCF p = some i) ∨
    (op = 0x04#8 ∧ operandCB p = some i) ∨
    (op = 0x05#8 ∧ operandC0 .takeSweep p = some i) ∨
    (op = 0x06#8 ∧ operandC0 .sweepInvalidate p = some i) ∨
    (op = 0x07#8 ∧ operandCP p = some i) ∨
    (op = 0x10#8 ∧ operandC2 .setForward p = some i) ∨
    (op = 0x11#8 ∧ operandC2 .setReverse p = some i) ∨
    (op = 0x12#8 ∧ operandC2 .setSteering p = some i) ∨
    (op = 0x18#8 ∧ operandC0 .pause p = some i) ∨
    (op = 0x19#8 ∧ operandC0 .unpause p = some i) ∨
    (op = 0x1A#8 ∧ operandC0 .togglePause p = some i) := by
  by_cases hm : op ∈ opcodes
  · simp only [opcodes, List.mem_cons, List.not_mem_nil, or_false] at hm
    rcases hm with rfl | rfl | rfl | rfl | rfl | rfl | rfl | rfl | rfl | rfl | rfl | rfl | rfl
    · exact Or.inl ⟨rfl, h⟩
    · exact Or.inr (Or.inl ⟨rfl, h⟩)
    · exact Or.inr (Or.inr (Or.inl ⟨rfl, h⟩))
    · exact Or.inr (Or.inr (Or.inr (Or.inl ⟨rfl, h⟩)))
    · exact Or.inr (Or.inr (Or.inr (Or.inr (Or.inl ⟨rfl, h⟩))))
    · exact Or.inr (Or.inr (Or.inr (Or.inr (Or.inr (Or.inl ⟨rfl, h⟩)))))
    · exact Or.inr (Or.inr (Or.inr (Or.inr (Or.inr (Or.inr (Or.inl ⟨rfl, h⟩))))))
    · exact Or.inr (Or.inr (Or.inr (Or.inr (Or.inr (Or.inr (Or.inr (Or.inl ⟨rfl, h⟩)))))))
    · exact Or.inr (Or.inr (Or.inr (Or.inr (Or.inr (Or.inr (Or.inr (Or.inr (Or.inl ⟨rfl, h⟩))))))))
    · exact Or.inr (Or.inr (Or.inr (Or.inr (Or.inr (Or.inr (Or.inr (Or.inr (Or.inr (Or.inl ⟨rfl, h⟩)))))))))
    · exact Or.inr (Or.inr (Or.inr (Or.inr (Or.inr (Or.inr (Or.inr (Or.inr (Or.inr (Or.inr (Or.inl ⟨rfl, h⟩))))))))))
    · exact Or.inr (Or.inr (Or.inr (Or.inr (Or.inr (Or.inr (Or.inr (Or.inr (Or.inr (Or.inr (Or.inr (Or.inl ⟨rfl, h⟩)))))))))))
    · exact Or.inr (Or.inr (Or.inr (Or.inr (Or.inr (Or.inr (Or.inr (Or.inr (Or.inr (Or.inr (Or.inr (Or.inr (⟨rfl, h⟩))))))))))))
  · rw [assemble_none p hm] at h
    cases h

/-- A `CMD` word with a legal opcode is the operation `assemble` makes of it, or has the wrong
length (R71). -/
theorem decodeCmd_cons {op : Byte} (p : List Byte) (h : op ∈ opcodes) :
    decodeCmd (op :: p) =
      match assemble op p with
      | some i => .instr i
      | none => .wrongLength (op :: p) := by
  obtain ⟨n, hn⟩ := payloadLen_some h
  simp only [decodeCmd, hn]
  all_goals cases assemble op p <;> rfl

/-- A `CMD` word with any other opcode is illegal (R73 (a)). -/
theorem decodeCmd_illegal {op : Byte} (p : List Byte) (h : op ∉ opcodes) :
    decodeCmd (op :: p) = .illegalOpcode op := by
  simp only [decodeCmd, payloadLen_none h]

/-- An `RX` word with `err = 0` carries its data (R69). -/
@[simp] theorem decodeRx_data (d : Byte) : decodeRx (0#1 ++ d) = .rxByte d := by
  have h1 : BitVec.extractLsb' 8 1 (0#1 ++ d) = 0#1 := by
    ext i hi
    rw [BitVec.getElem_extractLsb']
    refine (BitVec.getLsbD_append (x := 0#1) (y := d)).trans ?_
    simp
  have h2 : BitVec.extractLsb' 0 8 (0#1 ++ d) = d := by
    ext i hi
    rw [BitVec.getElem_extractLsb']
    refine (BitVec.getLsbD_append (x := 0#1) (y := d)).trans ?_
    simp [hi, BitVec.getLsbD_eq_getElem]
  unfold decodeRx
  rw [if_pos h1, h2]

/-- An `RX` word with `err = 1` is an error, whatever its data (R69). -/
@[simp] theorem decodeRx_error (d : Byte) : decodeRx (1#1 ++ d) = .rxError := by
  have h1 : BitVec.extractLsb' 8 1 (1#1 ++ d) = 1#1 := by
    ext i hi
    have : i = 0 := by omega
    subst this
    rw [BitVec.getElem_extractLsb']
    refine (BitVec.getLsbD_append (x := 1#1) (y := d)).trans ?_
    simp
  unfold decodeRx
  rw [if_neg]
  rw [h1]
  decide

end Sys2Proof
end

