-- ==== Sys2Proof/Laws/State.lean ====
section
/-! SUPPORT. One lemma per field per update of the state: what each update writes and that it leaves
every other field alone. -/

namespace Sys2Proof.Machine

variable (s : State)

/-! `pushRes` -/
@[simp] theorem pushRes_cfg (r : Result) : (s.pushRes r).cfg = s.cfg := rfl
@[simp] theorem pushRes_inbox (r : Result) : (s.pushRes r).inbox = s.inbox := rfl
@[simp] theorem pushRes_rxPhase (r : Result) : (s.pushRes r).rxPhase = s.rxPhase := rfl
@[simp] theorem pushRes_rxIdx (r : Result) : (s.pushRes r).rxIdx = s.rxIdx := rfl
@[simp] theorem pushRes_rxWbank (r : Result) : (s.pushRes r).rxWbank = s.rxWbank := rfl
@[simp] theorem pushRes_rxBank0 (r : Result) : (s.pushRes r).rxBank0 = s.rxBank0 := rfl
@[simp] theorem pushRes_rxBank1 (r : Result) : (s.pushRes r).rxBank1 = s.rxBank1 := rfl
@[simp] theorem pushRes_frameReady (r : Result) : (s.pushRes r).frameReady = s.frameReady := rfl
@[simp] theorem pushRes_rxBaud (r : Result) : (s.pushRes r).rxBaud = s.rxBaud := rfl
@[simp] theorem pushRes_swBuf (r : Result) : (s.pushRes r).swBuf = s.swBuf := rfl
@[simp] theorem pushRes_swCount (r : Result) : (s.pushRes r).swCount = s.swCount := rfl
@[simp] theorem pushRes_swLastRel (r : Result) : (s.pushRes r).swLastRel = s.swLastRel := rfl
@[simp] theorem pushRes_swLastValid (r : Result) : (s.pushRes r).swLastValid = s.swLastValid := rfl
@[simp] theorem pushRes_swOut (r : Result) : (s.pushRes r).swOut = s.swOut := rfl
@[simp] theorem pushRes_swOutCount (r : Result) : (s.pushRes r).swOutCount = s.swOutCount := rfl
@[simp] theorem pushRes_sweepReady (r : Result) : (s.pushRes r).sweepReady = s.sweepReady := rfl
@[simp] theorem pushRes_estopped (r : Result) : (s.pushRes r).estopped = s.estopped := rfl
@[simp] theorem pushRes_actMotor (r : Result) : (s.pushRes r).actMotor = s.actMotor := rfl
@[simp] theorem pushRes_actServo (r : Result) : (s.pushRes r).actServo = s.actServo := rfl
@[simp] theorem pushRes_resOut (r : Result) : (s.pushRes r).resOut = s.resOut ++ [r] := rfl
@[simp] theorem pushRes_actOut (r : Result) : (s.pushRes r).actOut = s.actOut := rfl

/-! `setInbox` -/
@[simp] theorem setInbox_cfg (ws : List PortWord) : (s.setInbox ws).cfg = s.cfg := rfl
@[simp] theorem setInbox_inbox (ws : List PortWord) : (s.setInbox ws).inbox = ws := rfl
@[simp] theorem setInbox_rxPhase (ws : List PortWord) : (s.setInbox ws).rxPhase = s.rxPhase := rfl
@[simp] theorem setInbox_rxIdx (ws : List PortWord) : (s.setInbox ws).rxIdx = s.rxIdx := rfl
@[simp] theorem setInbox_rxWbank (ws : List PortWord) : (s.setInbox ws).rxWbank = s.rxWbank := rfl
@[simp] theorem setInbox_rxBank0 (ws : List PortWord) : (s.setInbox ws).rxBank0 = s.rxBank0 := rfl
@[simp] theorem setInbox_rxBank1 (ws : List PortWord) : (s.setInbox ws).rxBank1 = s.rxBank1 := rfl
@[simp] theorem setInbox_frameReady (ws : List PortWord) :
    (s.setInbox ws).frameReady = s.frameReady := rfl
@[simp] theorem setInbox_rxBaud (ws : List PortWord) : (s.setInbox ws).rxBaud = s.rxBaud := rfl
@[simp] theorem setInbox_swBuf (ws : List PortWord) : (s.setInbox ws).swBuf = s.swBuf := rfl
@[simp] theorem setInbox_swCount (ws : List PortWord) : (s.setInbox ws).swCount = s.swCount := rfl
@[simp] theorem setInbox_swLastRel (ws : List PortWord) :
    (s.setInbox ws).swLastRel = s.swLastRel := rfl
@[simp] theorem setInbox_swLastValid (ws : List PortWord) :
    (s.setInbox ws).swLastValid = s.swLastValid := rfl
@[simp] theorem setInbox_swOut (ws : List PortWord) : (s.setInbox ws).swOut = s.swOut := rfl
@[simp] theorem setInbox_swOutCount (ws : List PortWord) :
    (s.setInbox ws).swOutCount = s.swOutCount := rfl
@[simp] theorem setInbox_sweepReady (ws : List PortWord) :
    (s.setInbox ws).sweepReady = s.sweepReady := rfl
@[simp] theorem setInbox_estopped (ws : List PortWord) :
    (s.setInbox ws).estopped = s.estopped := rfl
@[simp] theorem setInbox_actMotor (ws : List PortWord) :
    (s.setInbox ws).actMotor = s.actMotor := rfl
@[simp] theorem setInbox_actServo (ws : List PortWord) :
    (s.setInbox ws).actServo = s.actServo := rfl
@[simp] theorem setInbox_resOut (ws : List PortWord) : (s.setInbox ws).resOut = s.resOut := rfl
@[simp] theorem setInbox_actOut (ws : List PortWord) : (s.setInbox ws).actOut = s.actOut := rfl

/-! `armRx` -/
@[simp] theorem armRx_cfg (ph : RxPhase) (idx : Fin 47) : (s.armRx ph idx).cfg = s.cfg := rfl
@[simp] theorem armRx_inbox (ph : RxPhase) (idx : Fin 47) : (s.armRx ph idx).inbox = s.inbox := rfl
@[simp] theorem armRx_rxPhase (ph : RxPhase) (idx : Fin 47) : (s.armRx ph idx).rxPhase = ph := rfl
@[simp] theorem armRx_rxIdx (ph : RxPhase) (idx : Fin 47) : (s.armRx ph idx).rxIdx = idx := rfl
@[simp] theorem armRx_rxWbank (ph : RxPhase) (idx : Fin 47) :
    (s.armRx ph idx).rxWbank = s.rxWbank := rfl
@[simp] theorem armRx_rxBank0 (ph : RxPhase) (idx : Fin 47) :
    (s.armRx ph idx).rxBank0 = s.rxBank0 := rfl
@[simp] theorem armRx_rxBank1 (ph : RxPhase) (idx : Fin 47) :
    (s.armRx ph idx).rxBank1 = s.rxBank1 := rfl
@[simp] theorem armRx_frameReady (ph : RxPhase) (idx : Fin 47) :
    (s.armRx ph idx).frameReady = s.frameReady := rfl
@[simp] theorem armRx_rxBaud (ph : RxPhase) (idx : Fin 47) :
    (s.armRx ph idx).rxBaud = s.rxBaud := rfl
@[simp] theorem armRx_swBuf (ph : RxPhase) (idx : Fin 47) : (s.armRx ph idx).swBuf = s.swBuf := rfl
@[simp] theorem armRx_swCount (ph : RxPhase) (idx : Fin 47) :
    (s.armRx ph idx).swCount = s.swCount := rfl
@[simp] theorem armRx_swLastRel (ph : RxPhase) (idx : Fin 47) :
    (s.armRx ph idx).swLastRel = s.swLastRel := rfl
@[simp] theorem armRx_swLastValid (ph : RxPhase) (idx : Fin 47) :
    (s.armRx ph idx).swLastValid = s.swLastValid := rfl
@[simp] theorem armRx_swOut (ph : RxPhase) (idx : Fin 47) : (s.armRx ph idx).swOut = s.swOut := rfl
@[simp] theorem armRx_swOutCount (ph : RxPhase) (idx : Fin 47) :
    (s.armRx ph idx).swOutCount = s.swOutCount := rfl
@[simp] theorem armRx_sweepReady (ph : RxPhase) (idx : Fin 47) :
    (s.armRx ph idx).sweepReady = s.sweepReady := rfl
@[simp] theorem armRx_estopped (ph : RxPhase) (idx : Fin 47) :
    (s.armRx ph idx).estopped = s.estopped := rfl
@[simp] theorem armRx_actMotor (ph : RxPhase) (idx : Fin 47) :
    (s.armRx ph idx).actMotor = s.actMotor := rfl
@[simp] theorem armRx_actServo (ph : RxPhase) (idx : Fin 47) :
    (s.armRx ph idx).actServo = s.actServo := rfl
@[simp] theorem armRx_resOut (ph : RxPhase) (idx : Fin 47) :
    (s.armRx ph idx).resOut = s.resOut := rfl
@[simp] theorem armRx_actOut (ph : RxPhase) (idx : Fin 47) :
    (s.armRx ph idx).actOut = s.actOut := rfl

/-! `setFrameReady` -/
@[simp] theorem setFrameReady_cfg (b : Bool) : (s.setFrameReady b).cfg = s.cfg := rfl
@[simp] theorem setFrameReady_inbox (b : Bool) : (s.setFrameReady b).inbox = s.inbox := rfl
@[simp] theorem setFrameReady_rxPhase (b : Bool) : (s.setFrameReady b).rxPhase = s.rxPhase := rfl
@[simp] theorem setFrameReady_rxIdx (b : Bool) : (s.setFrameReady b).rxIdx = s.rxIdx := rfl
@[simp] theorem setFrameReady_rxWbank (b : Bool) : (s.setFrameReady b).rxWbank = s.rxWbank := rfl
@[simp] theorem setFrameReady_rxBank0 (b : Bool) : (s.setFrameReady b).rxBank0 = s.rxBank0 := rfl
@[simp] theorem setFrameReady_rxBank1 (b : Bool) : (s.setFrameReady b).rxBank1 = s.rxBank1 := rfl
@[simp] theorem setFrameReady_frameReady (b : Bool) : (s.setFrameReady b).frameReady = b := rfl
@[simp] theorem setFrameReady_rxBaud (b : Bool) : (s.setFrameReady b).rxBaud = s.rxBaud := rfl
@[simp] theorem setFrameReady_swBuf (b : Bool) : (s.setFrameReady b).swBuf = s.swBuf := rfl
@[simp] theorem setFrameReady_swCount (b : Bool) : (s.setFrameReady b).swCount = s.swCount := rfl
@[simp] theorem setFrameReady_swLastRel (b : Bool) :
    (s.setFrameReady b).swLastRel = s.swLastRel := rfl
@[simp] theorem setFrameReady_swLastValid (b : Bool) :
    (s.setFrameReady b).swLastValid = s.swLastValid := rfl
@[simp] theorem setFrameReady_swOut (b : Bool) : (s.setFrameReady b).swOut = s.swOut := rfl
@[simp] theorem setFrameReady_swOutCount (b : Bool) :
    (s.setFrameReady b).swOutCount = s.swOutCount := rfl
@[simp] theorem setFrameReady_sweepReady (b : Bool) :
    (s.setFrameReady b).sweepReady = s.sweepReady := rfl
@[simp] theorem setFrameReady_estopped (b : Bool) : (s.setFrameReady b).estopped = s.estopped := rfl
@[simp] theorem setFrameReady_actMotor (b : Bool) : (s.setFrameReady b).actMotor = s.actMotor := rfl
@[simp] theorem setFrameReady_actServo (b : Bool) : (s.setFrameReady b).actServo = s.actServo := rfl
@[simp] theorem setFrameReady_resOut (b : Bool) : (s.setFrameReady b).resOut = s.resOut := rfl
@[simp] theorem setFrameReady_actOut (b : Bool) : (s.setFrameReady b).actOut = s.actOut := rfl

/-! `setBaud` -/
@[simp] theorem setBaud_cfg (v : BitVec 32) : (s.setBaud v).cfg = s.cfg := rfl
@[simp] theorem setBaud_inbox (v : BitVec 32) : (s.setBaud v).inbox = s.inbox := rfl
@[simp] theorem setBaud_rxPhase (v : BitVec 32) : (s.setBaud v).rxPhase = s.rxPhase := rfl
@[simp] theorem setBaud_rxIdx (v : BitVec 32) : (s.setBaud v).rxIdx = s.rxIdx := rfl
@[simp] theorem setBaud_rxWbank (v : BitVec 32) : (s.setBaud v).rxWbank = s.rxWbank := rfl
@[simp] theorem setBaud_rxBank0 (v : BitVec 32) : (s.setBaud v).rxBank0 = s.rxBank0 := rfl
@[simp] theorem setBaud_rxBank1 (v : BitVec 32) : (s.setBaud v).rxBank1 = s.rxBank1 := rfl
@[simp] theorem setBaud_frameReady (v : BitVec 32) : (s.setBaud v).frameReady = s.frameReady := rfl
@[simp] theorem setBaud_rxBaud (v : BitVec 32) : (s.setBaud v).rxBaud = v := rfl
@[simp] theorem setBaud_swBuf (v : BitVec 32) : (s.setBaud v).swBuf = s.swBuf := rfl
@[simp] theorem setBaud_swCount (v : BitVec 32) : (s.setBaud v).swCount = s.swCount := rfl
@[simp] theorem setBaud_swLastRel (v : BitVec 32) : (s.setBaud v).swLastRel = s.swLastRel := rfl
@[simp] theorem setBaud_swLastValid (v : BitVec 32) :
    (s.setBaud v).swLastValid = s.swLastValid := rfl
@[simp] theorem setBaud_swOut (v : BitVec 32) : (s.setBaud v).swOut = s.swOut := rfl
@[simp] theorem setBaud_swOutCount (v : BitVec 32) : (s.setBaud v).swOutCount = s.swOutCount := rfl
@[simp] theorem setBaud_sweepReady (v : BitVec 32) : (s.setBaud v).sweepReady = s.sweepReady := rfl
@[simp] theorem setBaud_estopped (v : BitVec 32) : (s.setBaud v).estopped = s.estopped := rfl
@[simp] theorem setBaud_actMotor (v : BitVec 32) : (s.setBaud v).actMotor = s.actMotor := rfl
@[simp] theorem setBaud_actServo (v : BitVec 32) : (s.setBaud v).actServo = s.actServo := rfl
@[simp] theorem setBaud_resOut (v : BitVec 32) : (s.setBaud v).resOut = s.resOut := rfl
@[simp] theorem setBaud_actOut (v : BitVec 32) : (s.setBaud v).actOut = s.actOut := rfl

/-! `publish` -/
@[simp] theorem publish_cfg : (publish s).cfg = s.cfg := rfl
@[simp] theorem publish_inbox : (publish s).inbox = s.inbox := rfl
@[simp] theorem publish_rxPhase : (publish s).rxPhase = s.rxPhase := rfl
@[simp] theorem publish_rxIdx : (publish s).rxIdx = s.rxIdx := rfl
@[simp] theorem publish_rxWbank : (publish s).rxWbank = s.rxWbank.other := rfl
@[simp] theorem publish_rxBank0 : (publish s).rxBank0 = s.rxBank0 := rfl
@[simp] theorem publish_rxBank1 : (publish s).rxBank1 = s.rxBank1 := rfl
@[simp] theorem publish_frameReady : (publish s).frameReady = true := rfl
@[simp] theorem publish_rxBaud : (publish s).rxBaud = s.rxBaud := rfl
@[simp] theorem publish_swBuf : (publish s).swBuf = s.swBuf := rfl
@[simp] theorem publish_swCount : (publish s).swCount = s.swCount := rfl
@[simp] theorem publish_swLastRel : (publish s).swLastRel = s.swLastRel := rfl
@[simp] theorem publish_swLastValid : (publish s).swLastValid = s.swLastValid := rfl
@[simp] theorem publish_swOut : (publish s).swOut = s.swOut := rfl
@[simp] theorem publish_swOutCount : (publish s).swOutCount = s.swOutCount := rfl
@[simp] theorem publish_sweepReady : (publish s).sweepReady = s.sweepReady := rfl
@[simp] theorem publish_estopped : (publish s).estopped = s.estopped := rfl
@[simp] theorem publish_actMotor : (publish s).actMotor = s.actMotor := rfl
@[simp] theorem publish_actServo : (publish s).actServo = s.actServo := rfl
@[simp] theorem publish_resOut : (publish s).resOut = s.resOut := rfl
@[simp] theorem publish_actOut : (publish s).actOut = s.actOut := rfl

/-! `track` -/
@[simp] theorem track_cfg (r : Nat) : (s.track r).cfg = s.cfg := rfl
@[simp] theorem track_inbox (r : Nat) : (s.track r).inbox = s.inbox := rfl
@[simp] theorem track_rxPhase (r : Nat) : (s.track r).rxPhase = s.rxPhase := rfl
@[simp] theorem track_rxIdx (r : Nat) : (s.track r).rxIdx = s.rxIdx := rfl
@[simp] theorem track_rxWbank (r : Nat) : (s.track r).rxWbank = s.rxWbank := rfl
@[simp] theorem track_rxBank0 (r : Nat) : (s.track r).rxBank0 = s.rxBank0 := rfl
@[simp] theorem track_rxBank1 (r : Nat) : (s.track r).rxBank1 = s.rxBank1 := rfl
@[simp] theorem track_frameReady (r : Nat) : (s.track r).frameReady = s.frameReady := rfl
@[simp] theorem track_rxBaud (r : Nat) : (s.track r).rxBaud = s.rxBaud := rfl
@[simp] theorem track_swBuf (r : Nat) : (s.track r).swBuf = s.swBuf := rfl
@[simp] theorem track_swCount (r : Nat) : (s.track r).swCount = s.swCount := rfl
@[simp] theorem track_swLastRel (r : Nat) : (s.track r).swLastRel = BitVec.ofNat 16 r := rfl
@[simp] theorem track_swLastValid (r : Nat) : (s.track r).swLastValid = true := rfl
@[simp] theorem track_swOut (r : Nat) : (s.track r).swOut = s.swOut := rfl
@[simp] theorem track_swOutCount (r : Nat) : (s.track r).swOutCount = s.swOutCount := rfl
@[simp] theorem track_sweepReady (r : Nat) : (s.track r).sweepReady = s.sweepReady := rfl
@[simp] theorem track_estopped (r : Nat) : (s.track r).estopped = s.estopped := rfl
@[simp] theorem track_actMotor (r : Nat) : (s.track r).actMotor = s.actMotor := rfl
@[simp] theorem track_actServo (r : Nat) : (s.track r).actServo = s.actServo := rfl
@[simp] theorem track_resOut (r : Nat) : (s.track r).resOut = s.resOut := rfl
@[simp] theorem track_actOut (r : Nat) : (s.track r).actOut = s.actOut := rfl

/-! `setBuffer` -/
@[simp] theorem setBuffer_cfg (m : Memory 40) (n : Nat) : (s.setBuffer m n).cfg = s.cfg := rfl
@[simp] theorem setBuffer_inbox (m : Memory 40) (n : Nat) : (s.setBuffer m n).inbox = s.inbox := rfl
@[simp] theorem setBuffer_rxPhase (m : Memory 40) (n : Nat) :
    (s.setBuffer m n).rxPhase = s.rxPhase := rfl
@[simp] theorem setBuffer_rxIdx (m : Memory 40) (n : Nat) : (s.setBuffer m n).rxIdx = s.rxIdx := rfl
@[simp] theorem setBuffer_rxWbank (m : Memory 40) (n : Nat) :
    (s.setBuffer m n).rxWbank = s.rxWbank := rfl
@[simp] theorem setBuffer_rxBank0 (m : Memory 40) (n : Nat) :
    (s.setBuffer m n).rxBank0 = s.rxBank0 := rfl
@[simp] theorem setBuffer_rxBank1 (m : Memory 40) (n : Nat) :
    (s.setBuffer m n).rxBank1 = s.rxBank1 := rfl
@[simp] theorem setBuffer_frameReady (m : Memory 40) (n : Nat) :
    (s.setBuffer m n).frameReady = s.frameReady := rfl
@[simp] theorem setBuffer_rxBaud (m : Memory 40) (n : Nat) :
    (s.setBuffer m n).rxBaud = s.rxBaud := rfl
@[simp] theorem setBuffer_swBuf (m : Memory 40) (n : Nat) : (s.setBuffer m n).swBuf = m := rfl
@[simp] theorem setBuffer_swCount (m : Memory 40) (n : Nat) : (s.setBuffer m n).swCount = n := rfl
@[simp] theorem setBuffer_swLastRel (m : Memory 40) (n : Nat) :
    (s.setBuffer m n).swLastRel = s.swLastRel := rfl
@[simp] theorem setBuffer_swLastValid (m : Memory 40) (n : Nat) :
    (s.setBuffer m n).swLastValid = s.swLastValid := rfl
@[simp] theorem setBuffer_swOut (m : Memory 40) (n : Nat) : (s.setBuffer m n).swOut = s.swOut := rfl
@[simp] theorem setBuffer_swOutCount (m : Memory 40) (n : Nat) :
    (s.setBuffer m n).swOutCount = s.swOutCount := rfl
@[simp] theorem setBuffer_sweepReady (m : Memory 40) (n : Nat) :
    (s.setBuffer m n).sweepReady = s.sweepReady := rfl
@[simp] theorem setBuffer_estopped (m : Memory 40) (n : Nat) :
    (s.setBuffer m n).estopped = s.estopped := rfl
@[simp] theorem setBuffer_actMotor (m : Memory 40) (n : Nat) :
    (s.setBuffer m n).actMotor = s.actMotor := rfl
@[simp] theorem setBuffer_actServo (m : Memory 40) (n : Nat) :
    (s.setBuffer m n).actServo = s.actServo := rfl
@[simp] theorem setBuffer_resOut (m : Memory 40) (n : Nat) :
    (s.setBuffer m n).resOut = s.resOut := rfl
@[simp] theorem setBuffer_actOut (m : Memory 40) (n : Nat) :
    (s.setBuffer m n).actOut = s.actOut := rfl

/-! `setSweep` -/
@[simp] theorem setSweep_cfg (m : Memory 40) (n : Nat) : (s.setSweep m n).cfg = s.cfg := rfl
@[simp] theorem setSweep_inbox (m : Memory 40) (n : Nat) : (s.setSweep m n).inbox = s.inbox := rfl
@[simp] theorem setSweep_rxPhase (m : Memory 40) (n : Nat) :
    (s.setSweep m n).rxPhase = s.rxPhase := rfl
@[simp] theorem setSweep_rxIdx (m : Memory 40) (n : Nat) : (s.setSweep m n).rxIdx = s.rxIdx := rfl
@[simp] theorem setSweep_rxWbank (m : Memory 40) (n : Nat) :
    (s.setSweep m n).rxWbank = s.rxWbank := rfl
@[simp] theorem setSweep_rxBank0 (m : Memory 40) (n : Nat) :
    (s.setSweep m n).rxBank0 = s.rxBank0 := rfl
@[simp] theorem setSweep_rxBank1 (m : Memory 40) (n : Nat) :
    (s.setSweep m n).rxBank1 = s.rxBank1 := rfl
@[simp] theorem setSweep_frameReady (m : Memory 40) (n : Nat) :
    (s.setSweep m n).frameReady = s.frameReady := rfl
@[simp] theorem setSweep_rxBaud (m : Memory 40) (n : Nat) :
    (s.setSweep m n).rxBaud = s.rxBaud := rfl
@[simp] theorem setSweep_swBuf (m : Memory 40) (n : Nat) : (s.setSweep m n).swBuf = s.swBuf := rfl
@[simp] theorem setSweep_swCount (m : Memory 40) (n : Nat) : (s.setSweep m n).swCount = 0 := rfl
@[simp] theorem setSweep_swLastRel (m : Memory 40) (n : Nat) :
    (s.setSweep m n).swLastRel = s.swLastRel := rfl
@[simp] theorem setSweep_swLastValid (m : Memory 40) (n : Nat) :
    (s.setSweep m n).swLastValid = s.swLastValid := rfl
@[simp] theorem setSweep_swOut (m : Memory 40) (n : Nat) : (s.setSweep m n).swOut = m := rfl
@[simp] theorem setSweep_swOutCount (m : Memory 40) (n : Nat) :
    (s.setSweep m n).swOutCount = n := rfl
@[simp] theorem setSweep_sweepReady (m : Memory 40) (n : Nat) :
    (s.setSweep m n).sweepReady = true := rfl
@[simp] theorem setSweep_estopped (m : Memory 40) (n : Nat) :
    (s.setSweep m n).estopped = s.estopped := rfl
@[simp] theorem setSweep_actMotor (m : Memory 40) (n : Nat) :
    (s.setSweep m n).actMotor = s.actMotor := rfl
@[simp] theorem setSweep_actServo (m : Memory 40) (n : Nat) :
    (s.setSweep m n).actServo = s.actServo := rfl
@[simp] theorem setSweep_resOut (m : Memory 40) (n : Nat) :
    (s.setSweep m n).resOut = s.resOut := rfl
@[simp] theorem setSweep_actOut (m : Memory 40) (n : Nat) :
    (s.setSweep m n).actOut = s.actOut := rfl

/-! `setSweepReady` -/
@[simp] theorem setSweepReady_cfg (b : Bool) : (s.setSweepReady b).cfg = s.cfg := rfl
@[simp] theorem setSweepReady_inbox (b : Bool) : (s.setSweepReady b).inbox = s.inbox := rfl
@[simp] theorem setSweepReady_rxPhase (b : Bool) : (s.setSweepReady b).rxPhase = s.rxPhase := rfl
@[simp] theorem setSweepReady_rxIdx (b : Bool) : (s.setSweepReady b).rxIdx = s.rxIdx := rfl
@[simp] theorem setSweepReady_rxWbank (b : Bool) : (s.setSweepReady b).rxWbank = s.rxWbank := rfl
@[simp] theorem setSweepReady_rxBank0 (b : Bool) : (s.setSweepReady b).rxBank0 = s.rxBank0 := rfl
@[simp] theorem setSweepReady_rxBank1 (b : Bool) : (s.setSweepReady b).rxBank1 = s.rxBank1 := rfl
@[simp] theorem setSweepReady_frameReady (b : Bool) :
    (s.setSweepReady b).frameReady = s.frameReady := rfl
@[simp] theorem setSweepReady_rxBaud (b : Bool) : (s.setSweepReady b).rxBaud = s.rxBaud := rfl
@[simp] theorem setSweepReady_swBuf (b : Bool) : (s.setSweepReady b).swBuf = s.swBuf := rfl
@[simp] theorem setSweepReady_swCount (b : Bool) : (s.setSweepReady b).swCount = s.swCount := rfl
@[simp] theorem setSweepReady_swLastRel (b : Bool) :
    (s.setSweepReady b).swLastRel = s.swLastRel := rfl
@[simp] theorem setSweepReady_swLastValid (b : Bool) :
    (s.setSweepReady b).swLastValid = s.swLastValid := rfl
@[simp] theorem setSweepReady_swOut (b : Bool) : (s.setSweepReady b).swOut = s.swOut := rfl
@[simp] theorem setSweepReady_swOutCount (b : Bool) :
    (s.setSweepReady b).swOutCount = s.swOutCount := rfl
@[simp] theorem setSweepReady_sweepReady (b : Bool) : (s.setSweepReady b).sweepReady = b := rfl
@[simp] theorem setSweepReady_estopped (b : Bool) : (s.setSweepReady b).estopped = s.estopped := rfl
@[simp] theorem setSweepReady_actMotor (b : Bool) : (s.setSweepReady b).actMotor = s.actMotor := rfl
@[simp] theorem setSweepReady_actServo (b : Bool) : (s.setSweepReady b).actServo = s.actServo := rfl
@[simp] theorem setSweepReady_resOut (b : Bool) : (s.setSweepReady b).resOut = s.resOut := rfl
@[simp] theorem setSweepReady_actOut (b : Bool) : (s.setSweepReady b).actOut = s.actOut := rfl

/-! `clearSweep` -/
@[simp] theorem clearSweep_cfg : s.clearSweep.cfg = s.cfg := rfl
@[simp] theorem clearSweep_inbox : s.clearSweep.inbox = s.inbox := rfl
@[simp] theorem clearSweep_rxPhase : s.clearSweep.rxPhase = s.rxPhase := rfl
@[simp] theorem clearSweep_rxIdx : s.clearSweep.rxIdx = s.rxIdx := rfl
@[simp] theorem clearSweep_rxWbank : s.clearSweep.rxWbank = s.rxWbank := rfl
@[simp] theorem clearSweep_rxBank0 : s.clearSweep.rxBank0 = s.rxBank0 := rfl
@[simp] theorem clearSweep_rxBank1 : s.clearSweep.rxBank1 = s.rxBank1 := rfl
@[simp] theorem clearSweep_frameReady : s.clearSweep.frameReady = s.frameReady := rfl
@[simp] theorem clearSweep_rxBaud : s.clearSweep.rxBaud = s.rxBaud := rfl
@[simp] theorem clearSweep_swBuf : s.clearSweep.swBuf = s.swBuf := rfl
@[simp] theorem clearSweep_swCount : s.clearSweep.swCount = 0 := rfl
@[simp] theorem clearSweep_swLastRel : s.clearSweep.swLastRel = s.swLastRel := rfl
@[simp] theorem clearSweep_swLastValid : s.clearSweep.swLastValid = false := rfl
@[simp] theorem clearSweep_swOut : s.clearSweep.swOut = s.swOut := rfl
@[simp] theorem clearSweep_swOutCount : s.clearSweep.swOutCount = s.swOutCount := rfl
@[simp] theorem clearSweep_sweepReady : s.clearSweep.sweepReady = s.sweepReady := rfl
@[simp] theorem clearSweep_estopped : s.clearSweep.estopped = s.estopped := rfl
@[simp] theorem clearSweep_actMotor : s.clearSweep.actMotor = s.actMotor := rfl
@[simp] theorem clearSweep_actServo : s.clearSweep.actServo = s.actServo := rfl
@[simp] theorem clearSweep_resOut : s.clearSweep.resOut = s.resOut := rfl
@[simp] theorem clearSweep_actOut : s.clearSweep.actOut = s.actOut := rfl

/-! `driveMotor` -/
@[simp] theorem driveMotor_cfg (c : ActCall) (m : Motor) : (s.driveMotor c m).cfg = s.cfg := rfl
@[simp] theorem driveMotor_inbox (c : ActCall) (m : Motor) :
    (s.driveMotor c m).inbox = s.inbox := rfl
@[simp] theorem driveMotor_rxPhase (c : ActCall) (m : Motor) :
    (s.driveMotor c m).rxPhase = s.rxPhase := rfl
@[simp] theorem driveMotor_rxIdx (c : ActCall) (m : Motor) :
    (s.driveMotor c m).rxIdx = s.rxIdx := rfl
@[simp] theorem driveMotor_rxWbank (c : ActCall) (m : Motor) :
    (s.driveMotor c m).rxWbank = s.rxWbank := rfl
@[simp] theorem driveMotor_rxBank0 (c : ActCall) (m : Motor) :
    (s.driveMotor c m).rxBank0 = s.rxBank0 := rfl
@[simp] theorem driveMotor_rxBank1 (c : ActCall) (m : Motor) :
    (s.driveMotor c m).rxBank1 = s.rxBank1 := rfl
@[simp] theorem driveMotor_frameReady (c : ActCall) (m : Motor) :
    (s.driveMotor c m).frameReady = s.frameReady := rfl
@[simp] theorem driveMotor_rxBaud (c : ActCall) (m : Motor) :
    (s.driveMotor c m).rxBaud = s.rxBaud := rfl
@[simp] theorem driveMotor_swBuf (c : ActCall) (m : Motor) :
    (s.driveMotor c m).swBuf = s.swBuf := rfl
@[simp] theorem driveMotor_swCount (c : ActCall) (m : Motor) :
    (s.driveMotor c m).swCount = s.swCount := rfl
@[simp] theorem driveMotor_swLastRel (c : ActCall) (m : Motor) :
    (s.driveMotor c m).swLastRel = s.swLastRel := rfl
@[simp] theorem driveMotor_swLastValid (c : ActCall) (m : Motor) :
    (s.driveMotor c m).swLastValid = s.swLastValid := rfl
@[simp] theorem driveMotor_swOut (c : ActCall) (m : Motor) :
    (s.driveMotor c m).swOut = s.swOut := rfl
@[simp] theorem driveMotor_swOutCount (c : ActCall) (m : Motor) :
    (s.driveMotor c m).swOutCount = s.swOutCount := rfl
@[simp] theorem driveMotor_sweepReady (c : ActCall) (m : Motor) :
    (s.driveMotor c m).sweepReady = s.sweepReady := rfl
@[simp] theorem driveMotor_estopped (c : ActCall) (m : Motor) :
    (s.driveMotor c m).estopped = s.estopped := rfl
@[simp] theorem driveMotor_actMotor (c : ActCall) (m : Motor) :
    (s.driveMotor c m).actMotor = m := rfl
@[simp] theorem driveMotor_actServo (c : ActCall) (m : Motor) :
    (s.driveMotor c m).actServo = s.actServo := rfl
@[simp] theorem driveMotor_resOut (c : ActCall) (m : Motor) :
    (s.driveMotor c m).resOut = s.resOut := rfl
@[simp] theorem driveMotor_actOut (c : ActCall) (m : Motor) :
    (s.driveMotor c m).actOut = s.actOut ++ [c] := rfl

/-! `driveServo` -/
@[simp] theorem driveServo_cfg (p : ServoPos) : (s.driveServo p).cfg = s.cfg := rfl
@[simp] theorem driveServo_inbox (p : ServoPos) : (s.driveServo p).inbox = s.inbox := rfl
@[simp] theorem driveServo_rxPhase (p : ServoPos) : (s.driveServo p).rxPhase = s.rxPhase := rfl
@[simp] theorem driveServo_rxIdx (p : ServoPos) : (s.driveServo p).rxIdx = s.rxIdx := rfl
@[simp] theorem driveServo_rxWbank (p : ServoPos) : (s.driveServo p).rxWbank = s.rxWbank := rfl
@[simp] theorem driveServo_rxBank0 (p : ServoPos) : (s.driveServo p).rxBank0 = s.rxBank0 := rfl
@[simp] theorem driveServo_rxBank1 (p : ServoPos) : (s.driveServo p).rxBank1 = s.rxBank1 := rfl
@[simp] theorem driveServo_frameReady (p : ServoPos) :
    (s.driveServo p).frameReady = s.frameReady := rfl
@[simp] theorem driveServo_rxBaud (p : ServoPos) : (s.driveServo p).rxBaud = s.rxBaud := rfl
@[simp] theorem driveServo_swBuf (p : ServoPos) : (s.driveServo p).swBuf = s.swBuf := rfl
@[simp] theorem driveServo_swCount (p : ServoPos) : (s.driveServo p).swCount = s.swCount := rfl
@[simp] theorem driveServo_swLastRel (p : ServoPos) :
    (s.driveServo p).swLastRel = s.swLastRel := rfl
@[simp] theorem driveServo_swLastValid (p : ServoPos) :
    (s.driveServo p).swLastValid = s.swLastValid := rfl
@[simp] theorem driveServo_swOut (p : ServoPos) : (s.driveServo p).swOut = s.swOut := rfl
@[simp] theorem driveServo_swOutCount (p : ServoPos) :
    (s.driveServo p).swOutCount = s.swOutCount := rfl
@[simp] theorem driveServo_sweepReady (p : ServoPos) :
    (s.driveServo p).sweepReady = s.sweepReady := rfl
@[simp] theorem driveServo_estopped (p : ServoPos) : (s.driveServo p).estopped = s.estopped := rfl
@[simp] theorem driveServo_actMotor (p : ServoPos) : (s.driveServo p).actMotor = s.actMotor := rfl
@[simp] theorem driveServo_actServo (p : ServoPos) : (s.driveServo p).actServo = .pos p := rfl
@[simp] theorem driveServo_resOut (p : ServoPos) : (s.driveServo p).resOut = s.resOut := rfl
@[simp] theorem driveServo_actOut (p : ServoPos) :
    (s.driveServo p).actOut = s.actOut ++ [.write p] := rfl

/-! `setEstopped` -/
@[simp] theorem setEstopped_cfg (b : Bool) : (s.setEstopped b).cfg = s.cfg := rfl
@[simp] theorem setEstopped_inbox (b : Bool) : (s.setEstopped b).inbox = s.inbox := rfl
@[simp] theorem setEstopped_rxPhase (b : Bool) : (s.setEstopped b).rxPhase = s.rxPhase := rfl
@[simp] theorem setEstopped_rxIdx (b : Bool) : (s.setEstopped b).rxIdx = s.rxIdx := rfl
@[simp] theorem setEstopped_rxWbank (b : Bool) : (s.setEstopped b).rxWbank = s.rxWbank := rfl
@[simp] theorem setEstopped_rxBank0 (b : Bool) : (s.setEstopped b).rxBank0 = s.rxBank0 := rfl
@[simp] theorem setEstopped_rxBank1 (b : Bool) : (s.setEstopped b).rxBank1 = s.rxBank1 := rfl
@[simp] theorem setEstopped_frameReady (b : Bool) :
    (s.setEstopped b).frameReady = s.frameReady := rfl
@[simp] theorem setEstopped_rxBaud (b : Bool) : (s.setEstopped b).rxBaud = s.rxBaud := rfl
@[simp] theorem setEstopped_swBuf (b : Bool) : (s.setEstopped b).swBuf = s.swBuf := rfl
@[simp] theorem setEstopped_swCount (b : Bool) : (s.setEstopped b).swCount = s.swCount := rfl
@[simp] theorem setEstopped_swLastRel (b : Bool) : (s.setEstopped b).swLastRel = s.swLastRel := rfl
@[simp] theorem setEstopped_swLastValid (b : Bool) :
    (s.setEstopped b).swLastValid = s.swLastValid := rfl
@[simp] theorem setEstopped_swOut (b : Bool) : (s.setEstopped b).swOut = s.swOut := rfl
@[simp] theorem setEstopped_swOutCount (b : Bool) :
    (s.setEstopped b).swOutCount = s.swOutCount := rfl
@[simp] theorem setEstopped_sweepReady (b : Bool) :
    (s.setEstopped b).sweepReady = s.sweepReady := rfl
@[simp] theorem setEstopped_estopped (b : Bool) : (s.setEstopped b).estopped = b := rfl
@[simp] theorem setEstopped_actMotor (b : Bool) : (s.setEstopped b).actMotor = s.actMotor := rfl
@[simp] theorem setEstopped_actServo (b : Bool) : (s.setEstopped b).actServo = s.actServo := rfl
@[simp] theorem setEstopped_resOut (b : Bool) : (s.setEstopped b).resOut = s.resOut := rfl
@[simp] theorem setEstopped_actOut (b : Bool) : (s.setEstopped b).actOut = s.actOut := rfl

/-! `motorNeutral` -/
@[simp] theorem motorNeutral_cfg : (motorNeutral s).cfg = s.cfg := rfl
@[simp] theorem motorNeutral_inbox : (motorNeutral s).inbox = s.inbox := rfl
@[simp] theorem motorNeutral_rxPhase : (motorNeutral s).rxPhase = s.rxPhase := rfl
@[simp] theorem motorNeutral_rxIdx : (motorNeutral s).rxIdx = s.rxIdx := rfl
@[simp] theorem motorNeutral_rxWbank : (motorNeutral s).rxWbank = s.rxWbank := rfl
@[simp] theorem motorNeutral_rxBank0 : (motorNeutral s).rxBank0 = s.rxBank0 := rfl
@[simp] theorem motorNeutral_rxBank1 : (motorNeutral s).rxBank1 = s.rxBank1 := rfl
@[simp] theorem motorNeutral_frameReady : (motorNeutral s).frameReady = s.frameReady := rfl
@[simp] theorem motorNeutral_rxBaud : (motorNeutral s).rxBaud = s.rxBaud := rfl
@[simp] theorem motorNeutral_swBuf : (motorNeutral s).swBuf = s.swBuf := rfl
@[simp] theorem motorNeutral_swCount : (motorNeutral s).swCount = s.swCount := rfl
@[simp] theorem motorNeutral_swLastRel : (motorNeutral s).swLastRel = s.swLastRel := rfl
@[simp] theorem motorNeutral_swLastValid : (motorNeutral s).swLastValid = s.swLastValid := rfl
@[simp] theorem motorNeutral_swOut : (motorNeutral s).swOut = s.swOut := rfl
@[simp] theorem motorNeutral_swOutCount : (motorNeutral s).swOutCount = s.swOutCount := rfl
@[simp] theorem motorNeutral_sweepReady : (motorNeutral s).sweepReady = s.sweepReady := rfl
@[simp] theorem motorNeutral_estopped : (motorNeutral s).estopped = s.estopped := rfl
@[simp] theorem motorNeutral_actMotor : (motorNeutral s).actMotor = .neutral := rfl
@[simp] theorem motorNeutral_actServo : (motorNeutral s).actServo = s.actServo := rfl
@[simp] theorem motorNeutral_resOut : (motorNeutral s).resOut = s.resOut := rfl
@[simp] theorem motorNeutral_actOut : (motorNeutral s).actOut = s.actOut ++ [.setNeutral] := rfl

/-! `setBank`, `storeByte` -/
@[simp] theorem setBank_cfg (b : Bank) (m : List Host.Cell) :
    (s.setBank b m).cfg = s.cfg := by cases b <;> rfl
@[simp] theorem setBank_inbox (b : Bank) (m : List Host.Cell) :
    (s.setBank b m).inbox = s.inbox := by cases b <;> rfl
@[simp] theorem setBank_rxPhase (b : Bank) (m : List Host.Cell) :
    (s.setBank b m).rxPhase = s.rxPhase := by cases b <;> rfl
@[simp] theorem setBank_rxIdx (b : Bank) (m : List Host.Cell) :
    (s.setBank b m).rxIdx = s.rxIdx := by cases b <;> rfl
@[simp] theorem setBank_rxWbank (b : Bank) (m : List Host.Cell) :
    (s.setBank b m).rxWbank = s.rxWbank := by cases b <;> rfl
@[simp] theorem setBank_frameReady (b : Bank) (m : List Host.Cell) :
    (s.setBank b m).frameReady = s.frameReady := by cases b <;> rfl
@[simp] theorem setBank_rxBaud (b : Bank) (m : List Host.Cell) :
    (s.setBank b m).rxBaud = s.rxBaud := by cases b <;> rfl
@[simp] theorem setBank_swBuf (b : Bank) (m : List Host.Cell) :
    (s.setBank b m).swBuf = s.swBuf := by cases b <;> rfl
@[simp] theorem setBank_swCount (b : Bank) (m : List Host.Cell) :
    (s.setBank b m).swCount = s.swCount := by cases b <;> rfl
@[simp] theorem setBank_swLastRel (b : Bank) (m : List Host.Cell) :
    (s.setBank b m).swLastRel = s.swLastRel := by cases b <;> rfl
@[simp] theorem setBank_swLastValid (b : Bank) (m : List Host.Cell) :
    (s.setBank b m).swLastValid = s.swLastValid := by cases b <;> rfl
@[simp] theorem setBank_swOut (b : Bank) (m : List Host.Cell) :
    (s.setBank b m).swOut = s.swOut := by cases b <;> rfl
@[simp] theorem setBank_swOutCount (b : Bank) (m : List Host.Cell) :
    (s.setBank b m).swOutCount = s.swOutCount := by cases b <;> rfl
@[simp] theorem setBank_sweepReady (b : Bank) (m : List Host.Cell) :
    (s.setBank b m).sweepReady = s.sweepReady := by cases b <;> rfl
@[simp] theorem setBank_estopped (b : Bank) (m : List Host.Cell) :
    (s.setBank b m).estopped = s.estopped := by cases b <;> rfl
@[simp] theorem setBank_actMotor (b : Bank) (m : List Host.Cell) :
    (s.setBank b m).actMotor = s.actMotor := by cases b <;> rfl
@[simp] theorem setBank_actServo (b : Bank) (m : List Host.Cell) :
    (s.setBank b m).actServo = s.actServo := by cases b <;> rfl
@[simp] theorem setBank_resOut (b : Bank) (m : List Host.Cell) :
    (s.setBank b m).resOut = s.resOut := by cases b <;> rfl
@[simp] theorem setBank_actOut (b : Bank) (m : List Host.Cell) :
    (s.setBank b m).actOut = s.actOut := by cases b <;> rfl
@[simp] theorem storeByte_cfg (d : Byte) : (storeByte d s).cfg = s.cfg := by simp [storeByte]
@[simp] theorem storeByte_inbox (d : Byte) : (storeByte d s).inbox = s.inbox := by simp [storeByte]
@[simp] theorem storeByte_rxPhase (d : Byte) : (storeByte d s).rxPhase = s.rxPhase := by simp [storeByte]
@[simp] theorem storeByte_rxIdx (d : Byte) : (storeByte d s).rxIdx = s.rxIdx := by simp [storeByte]
@[simp] theorem storeByte_rxWbank (d : Byte) : (storeByte d s).rxWbank = s.rxWbank := by simp [storeByte]
@[simp] theorem storeByte_frameReady (d : Byte) : (storeByte d s).frameReady = s.frameReady := by simp [storeByte]
@[simp] theorem storeByte_rxBaud (d : Byte) : (storeByte d s).rxBaud = s.rxBaud := by simp [storeByte]
@[simp] theorem storeByte_swBuf (d : Byte) : (storeByte d s).swBuf = s.swBuf := by simp [storeByte]
@[simp] theorem storeByte_swCount (d : Byte) : (storeByte d s).swCount = s.swCount := by simp [storeByte]
@[simp] theorem storeByte_swLastRel (d : Byte) : (storeByte d s).swLastRel = s.swLastRel := by simp [storeByte]
@[simp] theorem storeByte_swLastValid (d : Byte) : (storeByte d s).swLastValid = s.swLastValid := by simp [storeByte]
@[simp] theorem storeByte_swOut (d : Byte) : (storeByte d s).swOut = s.swOut := by simp [storeByte]
@[simp] theorem storeByte_swOutCount (d : Byte) : (storeByte d s).swOutCount = s.swOutCount := by simp [storeByte]
@[simp] theorem storeByte_sweepReady (d : Byte) : (storeByte d s).sweepReady = s.sweepReady := by simp [storeByte]
@[simp] theorem storeByte_estopped (d : Byte) : (storeByte d s).estopped = s.estopped := by simp [storeByte]
@[simp] theorem storeByte_actMotor (d : Byte) : (storeByte d s).actMotor = s.actMotor := by simp [storeByte]
@[simp] theorem storeByte_actServo (d : Byte) : (storeByte d s).actServo = s.actServo := by simp [storeByte]
@[simp] theorem storeByte_resOut (d : Byte) : (storeByte d s).resOut = s.resOut := by simp [storeByte]
@[simp] theorem storeByte_actOut (d : Byte) : (storeByte d s).actOut = s.actOut := by simp [storeByte]

@[simp] theorem other_other (b : Bank) : b.other.other = b := by cases b <;> rfl
@[simp] theorem other_ne (b : Bank) : b.other ≠ b := by cases b <;> decide
@[simp] theorem ne_other (b : Bank) : b ≠ b.other := by cases b <;> decide

@[simp] theorem setBank_bank (b : Bank) (m : List Host.Cell) : (s.setBank b m).bank b = m := by
  cases b <;> rfl
@[simp] theorem setBank_bank_other (b : Bank) (m : List Host.Cell) :
    (s.setBank b m).bank b.other = s.bank b.other := by cases b <;> rfl
@[simp] theorem setBank_bank_self (b : Bank) : s.setBank b (s.bank b) = s := by cases b <;> rfl

@[simp] theorem pushRes_bank (r : Result) (bk : Bank) :
    (s.pushRes r).bank bk = s.bank bk := by cases bk <;> rfl
@[simp] theorem setInbox_bank (ws : List PortWord) (bk : Bank) :
    (s.setInbox ws).bank bk = s.bank bk := by cases bk <;> rfl
@[simp] theorem armRx_bank (ph : RxPhase) (idx : Fin 47) (bk : Bank) :
    (s.armRx ph idx).bank bk = s.bank bk := by cases bk <;> rfl
@[simp] theorem setFrameReady_bank (b : Bool) (bk : Bank) :
    (s.setFrameReady b).bank bk = s.bank bk := by cases bk <;> rfl
@[simp] theorem setBaud_bank (v : BitVec 32) (bk : Bank) :
    (s.setBaud v).bank bk = s.bank bk := by cases bk <;> rfl
@[simp] theorem publish_bank (bk : Bank) :
    (publish s).bank bk = s.bank bk := by cases bk <;> rfl
@[simp] theorem track_bank (r : Nat) (bk : Bank) :
    (s.track r).bank bk = s.bank bk := by cases bk <;> rfl
@[simp] theorem setBuffer_bank (m : Memory 40) (n : Nat) (bk : Bank) :
    (s.setBuffer m n).bank bk = s.bank bk := by cases bk <;> rfl
@[simp] theorem setSweep_bank (m : Memory 40) (n : Nat) (bk : Bank) :
    (s.setSweep m n).bank bk = s.bank bk := by cases bk <;> rfl
@[simp] theorem setSweepReady_bank (b : Bool) (bk : Bank) :
    (s.setSweepReady b).bank bk = s.bank bk := by cases bk <;> rfl
@[simp] theorem clearSweep_bank (bk : Bank) :
    s.clearSweep.bank bk = s.bank bk := by cases bk <;> rfl
@[simp] theorem driveMotor_bank (c : ActCall) (m : Motor) (bk : Bank) :
    (s.driveMotor c m).bank bk = s.bank bk := by cases bk <;> rfl
@[simp] theorem driveServo_bank (p : ServoPos) (bk : Bank) :
    (s.driveServo p).bank bk = s.bank bk := by cases bk <;> rfl
@[simp] theorem setEstopped_bank (b : Bool) (bk : Bank) :
    (s.setEstopped b).bank bk = s.bank bk := by cases bk <;> rfl
@[simp] theorem motorNeutral_bank (bk : Bank) :
    (motorNeutral s).bank bk = s.bank bk := by cases bk <;> rfl

/-! Reset -/
@[simp] theorem resetWith_cfg (c : Config) : (State.resetWith c).cfg = c := rfl
@[simp] theorem resetWith_inbox (c : Config) : (State.resetWith c).inbox = [] := rfl
@[simp] theorem resetWith_rxPhase (c : Config) : (State.resetWith c).rxPhase = .idle := rfl
@[simp] theorem resetWith_rxIdx (c : Config) : (State.resetWith c).rxIdx = 0 := rfl
@[simp] theorem resetWith_rxWbank (c : Config) : (State.resetWith c).rxWbank = .bank0 := rfl
@[simp] theorem resetWith_rxBank0 (c : Config) : (State.resetWith c).rxBank0 = [] := rfl
@[simp] theorem resetWith_rxBank1 (c : Config) : (State.resetWith c).rxBank1 = [] := rfl
@[simp] theorem resetWith_frameReady (c : Config) : (State.resetWith c).frameReady = false := rfl
@[simp] theorem resetWith_rxBaud (c : Config) : (State.resetWith c).rxBaud = 0#32 := rfl
@[simp] theorem resetWith_swBuf (c : Config) : (State.resetWith c).swBuf = [] := rfl
@[simp] theorem resetWith_swCount (c : Config) : (State.resetWith c).swCount = 0 := rfl
@[simp] theorem resetWith_swLastRel (c : Config) : (State.resetWith c).swLastRel = 0#16 := rfl
@[simp] theorem resetWith_swLastValid (c : Config) : (State.resetWith c).swLastValid = false := rfl
@[simp] theorem resetWith_swOut (c : Config) : (State.resetWith c).swOut = [] := rfl
@[simp] theorem resetWith_swOutCount (c : Config) : (State.resetWith c).swOutCount = 0 := rfl
@[simp] theorem resetWith_sweepReady (c : Config) : (State.resetWith c).sweepReady = false := rfl
@[simp] theorem resetWith_estopped (c : Config) : (State.resetWith c).estopped = true := rfl
@[simp] theorem resetWith_actMotor (c : Config) : (State.resetWith c).actMotor = .none := rfl
@[simp] theorem resetWith_actServo (c : Config) : (State.resetWith c).actServo = .none := rfl
@[simp] theorem resetWith_resOut (c : Config) : (State.resetWith c).resOut = [] := rfl
@[simp] theorem resetWith_actOut (c : Config) : (State.resetWith c).actOut = [] := rfl

end Sys2Proof.Machine
end

