-- ==== Sys2Proof/Laws/Memory.lean ====
section
/-! SUPPORT. The laws of the memories: a read after a write, the canonical form, and what a read or
a write of several cells gives (20_memory.md R40, R46). -/

namespace Sys2Proof.Machine

variable {w : Nat}

@[simp] theorem Memory.read_write_same (m : Memory w) (a : Nat) (v : BitVec w) :
    (m.write a v).read a = some v := by
  induction m with
  | nil => simp [Memory.write, Memory.read]
  | cons e m ih =>
    obtain ⟨b, x⟩ := e
    simp only [Memory.write]
    split
    · simp [Memory.read]
    · split
      · simp [Memory.read]
      · simp_all [Memory.read]

theorem Memory.read_write_other (m : Memory w) {a b : Nat} (v : BitVec w) (h : b ≠ a) :
    (m.write a v).read b = m.read b := by
  induction m with
  | nil => simp [Memory.write, Memory.read, h]
  | cons e m ih =>
    obtain ⟨c, x⟩ := e
    simp only [Memory.write]
    split
    · simp [Memory.read, h]
    · split
      · rename_i hac
        subst hac
        simp [Memory.read, h]
      · simp only [Memory.read, ih]

/-- One write, seen through the read of any cell. -/
theorem Memory.read_write (m : Memory w) (a b : Nat) (v : BitVec w) :
    (m.write a v).read b = if b = a then some v else m.read b := by
  split
  · rename_i h
    subst h
    simp
  · rename_i h
    exact Memory.read_write_other m v h

theorem Memory.rising_write (size : Nat) (m : Memory w) (lo a : Nat) (v : BitVec w)
    (h : Memory.rising size lo m = true) (hlo : lo ≤ a) (ha : a < size) :
    Memory.rising size lo (m.write a v) = true := by
  induction m generalizing lo with
  | nil => simp [Memory.write, Memory.rising, hlo, ha]
  | cons e m ih =>
    obtain ⟨b, x⟩ := e
    simp only [Memory.rising, Bool.and_eq_true, decide_eq_true_eq] at h
    simp only [Memory.write]
    split
    · rename_i hab
      simp only [Memory.rising, Bool.and_eq_true, decide_eq_true_eq]
      exact ⟨⟨hlo, ha⟩, ⟨by omega, h.1.2⟩, h.2⟩
    · split
      · rename_i hab
        subst hab
        simp only [Memory.rising, Bool.and_eq_true, decide_eq_true_eq]
        exact ⟨⟨hlo, ha⟩, h.2⟩
      · simp only [Memory.rising, Bool.and_eq_true, decide_eq_true_eq]
        exact ⟨h.1, ih (b + 1) h.2 (by omega)⟩

/-- A write inside the memory keeps the canonical form. -/
theorem Memory.wf_write {size : Nat} {m : Memory w} {a : Nat} (v : BitVec w)
    (h : Memory.wf size m = true) (ha : a < size) : Memory.wf size (m.write a v) = true :=
  Memory.rising_write size m 0 a v h (Nat.zero_le _) ha

@[simp] theorem Memory.wf_nil (size : Nat) : Memory.wf size ([] : Memory w) = true := rfl

theorem Memory.read_of_rising {size lo a : Nat} {m : Memory w}
    (h : Memory.rising size lo m = true) (ha : a < lo) : m.read a = none := by
  induction m generalizing lo with
  | nil => rfl
  | cons e m ih =>
    obtain ⟨b, x⟩ := e
    simp only [Memory.rising, Bool.and_eq_true, decide_eq_true_eq] at h
    simp only [Memory.read]
    rw [if_neg (by omega)]
    exact ih h.2 (by omega)

/-- Two canonical memories that read alike are the same list. -/
theorem Memory.ext_of_rising {size lo : Nat} {m n : Memory w}
    (hm : Memory.rising size lo m = true) (hn : Memory.rising size lo n = true)
    (h : ∀ a, m.read a = n.read a) : m = n := by
  induction m generalizing lo n with
  | nil =>
    cases n with
    | nil => rfl
    | cons e n =>
      have := h e.1
      simp [Memory.read] at this
  | cons e m ih =>
    obtain ⟨a, x⟩ := e
    cases n with
    | nil =>
      have := h a
      simp [Memory.read] at this
    | cons e' n =>
      obtain ⟨b, y⟩ := e'
      simp only [Memory.rising, Bool.and_eq_true, decide_eq_true_eq] at hm hn
      have hab : a = b := by
        by_contra hne
        rcases Nat.lt_or_gt_of_ne hne with hlt | hgt
        · have := h a
          simp only [Memory.read, if_pos, if_neg hne] at this
          rw [Memory.read_of_rising hn.2 (by omega)] at this
          exact absurd this (by simp)
        · have := h b
          simp only [Memory.read, if_pos, if_neg (Ne.symm hne)] at this
          rw [Memory.read_of_rising hm.2 (by omega)] at this
          exact absurd this.symm (by simp)
      subst hab
      have hxy : x = y := by simpa [Memory.read] using h a
      subst hxy
      congr 1
      refine ih hm.2 hn.2 fun c => ?_
      by_cases hc : c = a
      · subst hc
        rw [Memory.read_of_rising hm.2 (by omega), Memory.read_of_rising hn.2 (by omega)]
      · simpa [Memory.read, hc] using h c

@[simp] theorem Memory.filled_zero (m : Memory w) : Memory.filled m 0 := fun _ h =>
  absurd h (Nat.not_lt_zero _)

/-- Writing the next cell fills one more. -/
theorem Memory.filled_write {m : Memory w} {n : Nat} (v : BitVec w) (h : Memory.filled m n) :
    Memory.filled (m.write n v) (n + 1) := by
  intro a ha
  rw [Memory.read_write]
  split
  · rfl
  · exact h a (by omega)

/-- A read of several cells that all have values gives those values. -/
theorem readCells_ok (sp : Space) (size : Nat) (m : Memory w) (a n : Nat) (hs : a + n ≤ size)
    (h : ∀ b, a ≤ b → b < a + n → (m.read b).isSome = true) :
    readCells sp size m a n = .ok ((List.range' a n).map fun b => (m.read b).getD 0#w) := by
  induction n generalizing a with
  | zero => rfl
  | succ n ih =>
    obtain ⟨x, hx⟩ := Option.isSome_iff_exists.mp (h a (Nat.le_refl _) (by omega))
    rw [readCells, if_pos (by omega), hx]
    simp only []
    rw [ih (a + 1) (by omega) (fun b hb hb' => h b (by omega) (by omega))]
    simp [List.range'_succ, hx]

/-- Everything a read of several cells can answer with: the values of those cells. -/
theorem readCells_inv {sp : Space} {size : Nat} {m : Memory w} {a n : Nat} {xs : List (BitVec w)}
    (h : readCells sp size m a n = .ok xs) :
    xs.length = n ∧ (n ≠ 0 → a + n ≤ size) ∧
      (∀ i (hi : i < xs.length), m.read (a + i) = some xs[i]) := by
  induction n generalizing a xs with
  | zero =>
    simp only [readCells, Except.ok.injEq] at h
    subst h
    simp
  | succ n ih =>
    rw [readCells] at h
    split at h
    · rename_i ha
      split at h
      · cases h
      · rename_i x hx
        split at h
        · rename_i ys hys
          simp only [Except.ok.injEq] at h
          subst h
          obtain ⟨h1, h2, h3⟩ := ih hys
          refine ⟨by simp [h1], fun _ => ?_, fun i hi => ?_⟩
          · by_cases hn : n = 0
            · omega
            · have := h2 hn
              omega
          · cases i with
            | zero => simpa using hx
            | succ i =>
              have := h3 i (by simpa using hi)
              simpa [Nat.add_assoc, Nat.add_comm 1 i] using this
        · cases h
    · cases h

/-- A read of several cells faults exactly when one of them does not exist or has no value. -/
theorem readCells_error (sp : Space) (size : Nat) (m : Memory w) (a n : Nat) :
    (∃ e, readCells sp size m a n = .error e) ↔
      ∃ b, a ≤ b ∧ b < a + n ∧ (size ≤ b ∨ m.read b = none) := by
  induction n generalizing a with
  | zero =>
    simp only [readCells, reduceCtorEq, exists_false, false_iff]
    rintro ⟨b, h1, h2, -⟩
    omega
  | succ n ih =>
    rw [readCells]
    split
    · rename_i ha
      split
      · rename_i hx
        exact iff_of_true ⟨_, rfl⟩ ⟨a, Nat.le_refl _, by omega, .inr hx⟩
      · rename_i x hx
        have key : (∃ b, a ≤ b ∧ b < a + (n + 1) ∧ (size ≤ b ∨ m.read b = none)) ↔
            ∃ b, a + 1 ≤ b ∧ b < a + 1 + n ∧ (size ≤ b ∨ m.read b = none) := by
          constructor
          · rintro ⟨b, h1, h2, h3⟩
            refine ⟨b, ?_, by omega, h3⟩
            rcases Nat.lt_or_ge a b with h | h
            · exact h
            · have : b = a := by omega
              subst this
              rcases h3 with h3 | h3
              · omega
              · rw [hx] at h3
                cases h3
          · rintro ⟨b, h1, h2, h3⟩
            exact ⟨b, by omega, by omega, h3⟩
        rw [key, ← ih (a + 1)]
        split
        · rename_i ys hys
          simp [hys]
        · rename_i e he
          simp [he]
    · rename_i ha
      exact iff_of_true ⟨_, rfl⟩ ⟨a, Nat.le_refl _, by omega, .inl (by omega)⟩

/-- A write of several cells inside the memory: those cells hold the values, every other cell is
unchanged, and the canonical form is kept. -/
theorem writeCells_ok (sp : Space) (size : Nat) (m : Memory w) (a : Nat) (vs : List (BitVec w))
    (hs : a + vs.length ≤ size) :
    ∃ m', writeCells sp size m a vs = .ok m' ∧
      (∀ b, m'.read b = if h : a ≤ b ∧ b < a + vs.length then some (vs[b - a]'(by omega))
        else m.read b) ∧
      (Memory.wf size m = true → Memory.wf size m' = true) := by
  induction vs generalizing a m with
  | nil => exact ⟨m, rfl, fun b => by rw [dif_neg]; simp, id⟩
  | cons v vs ih =>
    simp only [List.length_cons] at hs
    obtain ⟨m', h1, h2, h3⟩ := ih (m.write a v) (a + 1) (by omega)
    refine ⟨m', by rw [writeCells, if_pos (by omega), h1], fun b => ?_,
      fun h => h3 (Memory.wf_write v h (by omega))⟩
    rw [h2 b, Memory.read_write]
    simp only [List.length_cons]
    by_cases hb : b = a
    · subst hb
      rw [dif_neg (by omega), if_pos rfl, dif_pos (by omega)]
      simp
    · by_cases hr : a + 1 ≤ b ∧ b < a + 1 + vs.length
      · rw [dif_pos hr, dif_pos (by omega)]
        obtain ⟨k, rfl⟩ : ∃ k, b = a + 1 + k := ⟨b - (a + 1), by omega⟩
        have e1 : a + 1 + k - a = k + 1 := by omega
        have e2 : a + 1 + k - (a + 1) = k := by omega
        simp [e1, e2]
      · rw [dif_neg hr, if_neg hb, dif_neg (by omega)]

/-- A write of several cells answers only when they are all inside the memory. -/
theorem writeCells_inv {sp : Space} {size : Nat} {m m' : Memory w} {a : Nat} {vs : List (BitVec w)}
    (h : writeCells sp size m a vs = .ok m') : vs = [] ∨ a + vs.length ≤ size := by
  induction vs generalizing a m with
  | nil => exact .inl rfl
  | cons v vs ih =>
    rw [writeCells] at h
    split at h
    · rename_i ha
      rcases ih h with h' | h'
      · subst h'
        right
        simp
        omega
      · right
        simp only [List.length_cons]
        omega
    · cases h

/-- A write of several cells faults exactly when there is one past the end of the memory. -/
theorem writeCells_error (sp : Space) (size : Nat) (m : Memory w) (a : Nat)
    (vs : List (BitVec w)) :
    (∃ e, writeCells sp size m a vs = .error e) ↔ vs ≠ [] ∧ size < a + vs.length := by
  by_cases h : a + vs.length ≤ size
  · obtain ⟨m', h1, -⟩ := writeCells_ok sp size m a vs h
    rw [h1]
    simp
    omega
  · constructor
    · rintro ⟨e, he⟩
      refine ⟨?_, by omega⟩
      rintro rfl
      simp [writeCells] at he
    · rintro ⟨hv, -⟩
      cases hw : writeCells sp size m a vs with
      | error e => exact ⟨e, rfl⟩
      | ok m' =>
        rcases writeCells_inv hw with h' | h'
        · exact absurd h' hv
        · exact absurd h' h

/-- The points of a memory whose next cell is written. -/
theorem Memory.points_write (m : Memory 40) (n : Nat) (v : Entry) :
    Memory.points (m.write n v) (n + 1) = Memory.points m n ++ [ofEntry v] := by
  simp only [Memory.points, List.range_succ, List.map_append, List.map_cons, List.map_nil,
    Memory.read_write_same, Option.getD_some]
  congr 1
  refine List.map_congr_left fun a ha => ?_
  rw [Memory.read_write_other]
  have := List.mem_range.mp ha
  omega

@[simp] theorem Memory.points_zero (m : Memory 40) : Memory.points m 0 = [] := rfl

@[simp] theorem Memory.points_length (m : Memory 40) (n : Nat) :
    (Memory.points m n).length = n := by simp [Memory.points]

/-- Two memories that read alike below `n` hold the same points there. -/
theorem Memory.points_congr {m m' : Memory 40} {n : Nat}
    (h : ∀ a, a < n → m.read a = m'.read a) : Memory.points m n = Memory.points m' n := by
  simp only [Memory.points]
  refine List.map_congr_left fun a ha => ?_
  rw [h a (List.mem_range.mp ha)]

/-- A read of the first `n` cells of a point memory gives its points. -/
theorem readCells_points (sp : Space) (size : Nat) (m : Memory 40) (n : Nat) (hs : n ≤ size)
    (h : Memory.filled m n) :
    ∃ es, readCells sp size m 0 n = .ok es ∧ es.length = n ∧ es.map ofEntry = Memory.points m n := by
  refine ⟨_, readCells_ok sp size m 0 n (by omega) fun b _ hb => h b (by omega), by simp, ?_⟩
  simp [Memory.points, List.range_eq_range']

end Sys2Proof.Machine
end

