-- ==== Sys2Proof/Laws/Operands.lean ====
section
/-! SUPPORT. The small laws of the operand computations: byte order, the 40-bit entry, relative
angles, the interpolation, the clamp. -/

namespace Sys2Proof.Machine

/-- R6: `u16le(lo, hi) = lo + 256*hi`. -/
theorem u16le_toNat (lo hi : Byte) : (u16le lo hi).toNat = lo.toNat + 256 * hi.toNat := by
  simp only [u16le, BitVec.toNat_append]
  rw [Nat.shiftLeft_eq, ← Nat.mul_comm, Nat.mul_comm, ← Nat.shiftLeft_eq,
    ← Nat.shiftLeft_add_eq_or_of_lt lo.isLt, Nat.shiftLeft_eq]
  omega

/-- Bit `i` of an entry (R66). -/
theorem toEntry_getLsbD (p : Point) (i : Nat) : (toEntry p).getLsbD i =
    if i < 8 then p.strength.getLsbD i
    else if i < 24 then p.distMm.getLsbD (i - 8)
    else p.angleCd.getLsbD (i - 24) := by
  refine (BitVec.getLsbD_append (x := p.angleCd ++ p.distMm) (y := p.strength)).trans ?_
  rw [BitVec.getLsbD_append]
  by_cases h8 : i < 8
  · simp [h8]
  · by_cases h24 : i < 24
    · simp [h8, h24, show i - 8 < 16 by omega]
    · simp [h8, h24, show ¬ i - 8 < 16 by omega, show i - 8 - 16 = i - 24 by omega]

/-- R66: an entry gives back the point it holds. -/
@[simp] theorem ofEntry_toEntry (p : Point) : ofEntry (toEntry p) = p := by
  obtain ⟨a, d, st⟩ := p
  simp only [ofEntry, Point.mk.injEq]
  refine ⟨?_, ?_, ?_⟩ <;> ext i hi <;>
    rw [BitVec.getElem_extractLsb', toEntry_getLsbD, ← BitVec.getLsbD_eq_getElem]
  · simp [show ¬ 24 + i < 8 by omega]
  · simp [show 8 + i < 24 by omega]
  · simp [hi]

/-- One round of R112's loop: bit 7 decides. -/
theorem crcShift_eq (poly c : Byte) :
    crcShift poly c = if c.getLsbD 7 = true then (c <<< 1) ^^^ poly else c <<< 1 := by
  simp only [crcShift, BitVec.msb_eq_getLsbD_last]

/-- The loop over the bits of a byte is the round, iterated. -/
theorem crcShifts_eq_iterate (poly : Byte) (n : Nat) (c : Byte) :
    crcShifts poly n c = (crcShift poly)^[n] c := by
  induction n generalizing c with
  | zero => rfl
  | succ n ih => rw [crcShifts, ih, Function.iterate_succ_apply]

/-- A round is linear over xor. -/
theorem crcShift_xor (poly a b : Byte) :
    crcShift poly (a ^^^ b) = crcShift poly a ^^^ crcShift poly b := by
  unfold crcShift
  rw [BitVec.msb_xor, BitVec.shiftLeft_xor_distrib]
  cases a.msb <;> cases b.msb <;> simp only [Bool.false_xor, Bool.true_xor, Bool.not_true,
    Bool.not_false, if_true, if_false, Bool.false_eq_true]
  · rw [BitVec.xor_assoc]
  · ac_rfl
  · rw [show a <<< 1 ^^^ poly ^^^ (b <<< 1 ^^^ poly) = a <<< 1 ^^^ b <<< 1 ^^^ (poly ^^^ poly) by
      ac_rfl, BitVec.xor_self, BitVec.xor_zero]

/-- The rounds of a byte are linear over xor. -/
theorem crcShifts_xor (poly : Byte) (n : Nat) (a b : Byte) :
    crcShifts poly n (a ^^^ b) = crcShifts poly n a ^^^ crcShifts poly n b := by
  induction n generalizing a b with
  | zero => rfl
  | succ n ih => simp only [crcShifts, crcShift_xor, ih]

@[simp] theorem crcShifts_zero (poly : Byte) (n : Nat) : crcShifts poly n 0#8 = 0#8 := by
  induction n with
  | zero => rfl
  | succ n ih => rw [crcShifts, show crcShift poly 0#8 = 0#8 by simp [crcShift], ih]

/-- Without reflection `crc8` is R112's pseudocode. -/
theorem crc8_plain (poly init xorOut : Byte) (bs : List Byte) :
    crc8 ⟨poly, init, xorOut, false, false⟩ bs = crcFold poly init bs ^^^ xorOut := by
  have h : reflectIf false = id := rfl
  simp [crc8, h]

/-- R130: a relative angle is 0..35999. -/
theorem rel_lt (c : Config) (a : Half) : rel c a < 36000 := by
  have h1 := Int.emod_lt_of_pos ((a.toNat : Int) - (c.spanStart : Int)) (b := 36000) (by decide)
  have h0 := Int.emod_nonneg ((a.toNat : Int) - (c.spanStart : Int)) (b := 36000) (by decide)
  simp only [rel]
  omega

@[simp] theorem rel_toNat_ofNat (c : Config) (a : Half) :
    (BitVec.ofNat 16 (rel c a)).toNat = rel c a := by
  have := rel_lt c a
  rw [BitVec.toNat_ofNat]
  omega

/-- R115: a span is 0..35999. -/
theorem spanCd_lt (start stop : Nat) : spanCd start stop < 36000 := by
  have h1 := Int.emod_lt_of_pos ((stop : Int) - (start : Int)) (b := 36000) (by decide)
  have h0 := Int.emod_nonneg ((stop : Int) - (start : Int)) (b := 36000) (by decide)
  simp only [spanCd]
  omega

/-- R117 (c): an interpolated angle is 0..35999. -/
theorem interp_lt (start stop i : Nat) : interp start stop i < 36000 :=
  Nat.mod_lt _ (by decide)

@[simp] theorem interp_toNat_ofNat (start stop i : Nat) :
    (BitVec.ofNat 16 (interp start stop i)).toNat = interp start stop i := by
  have := interp_lt start stop i
  rw [BitVec.toNat_ofNat]
  omega

/-- R160: a clamped value lies between the bounds. -/
theorem clamp_bounds {v lo hi : Int} (h : lo ≤ hi) : lo ≤ clamp v lo hi ∧ clamp v lo hi ≤ hi := by
  simp only [clamp]
  omega

/-- What the constraints of R4 say of a configuration record. -/
theorem config_bounds (c : Config) :
    c.spanStart ≤ 35999 ∧ 1 ≤ c.spanWidth ∧ c.spanWidth ≤ 36000 ∧ 1 ≤ c.nTarget ∧
      c.nTarget ≤ c.fifoDepth ∧ 0 ≤ c.speedCap ∧ c.speedCap ≤ 32767 ∧ 0 ≤ c.maxSteer ∧
      c.maxSteer ≤ 32767 ∧ -32768 ≤ c.steerBias ∧ c.steerBias ≤ 32767 ∧
      c.refPoint.angleCd.toNat < 36000 := by
  have := c.isLegal
  simp only [Params.legal, Bool.and_eq_true, decide_eq_true_eq] at this
  tauto

/-- R151, R159 (c): a duty is within `0..SPEED_CAP`. -/
theorem duty_bounds (c : Config) (power : Half) :
    0 ≤ duty c power ∧ duty c power ≤ c.speedCap :=
  clamp_bounds (config_bounds c).2.2.2.2.2.1

/-- R153, R159 (d): a steering command's position is one the limits allow. -/
theorem steerPos_ok (c : Config) (angle : Half) : servoOk c (steerPos c angle) := by
  have hb := config_bounds c
  have h := clamp_bounds (v := angle.toInt) (lo := -c.maxSteer) (hi := c.maxSteer) (by omega)
  exact ⟨trimmed c angle, by simp only [trimmed]; omega, by simp only [trimmed]; omega, rfl⟩

/-- R154, R159 (d): the neutral position is one the limits allow. -/
theorem neutralPos_ok (c : Config) : servoOk c (neutralPos c) := by
  have hb := config_bounds c
  exact ⟨0 + c.steerBias, by omega, by omega, rfl⟩

/-- The check of the meanings is the check of `WellFormed`. -/
theorem legalPoint_eq (p : Point) : legalPoint p = p.wellFormed := rfl

@[simp] theorem unpack_length (l : Layout) (f : Frame) : (unpack l f).points.length = 12 :=
  (unpack l f).len

/-- Every point of a decoded batch is a RangePoint (R117 (c)). -/
theorem unpack_wellFormed (l : Layout) (f : Frame) :
    ∀ p ∈ (unpack l f).points, p.wellFormed = true := by
  intro p hp
  simp only [unpack, List.mem_map] at hp
  obtain ⟨i, -, rfl⟩ := hp
  simp only [Point.wellFormed, lane, interp_toNat_ofNat, decide_eq_true_eq]
  exact interp_lt _ _ _

end Sys2Proof.Machine
end

