-- ==== Sys2Proof/Laws/Ops.lean ====
section
/-! SUPPORT. What each shared operation of Machine/Ops.lean can do, said once. -/

namespace Sys2Proof.Machine

/-! The ingestion buffer. -/

/-- Storing a byte, seen through the read of any cell of the bank being filled (R92). -/
theorem storeByte_read (d : Byte) (s : State) (a : Nat) :
    Memory.read ((storeByte d s).bank s.rxWbank) a =
      if a = s.rxIdx.val then some d else Memory.read (s.bank s.rxWbank) a := by
  rw [storeByte, setBank_bank, Memory.read_write]

/-- Storing a byte leaves the other bank alone (R92). -/
theorem storeByte_other (d : Byte) (s : State) :
    (storeByte d s).bank s.rxWbank.other = s.bank s.rxWbank.other := by
  rw [storeByte, setBank_bank_other]

/-- The published bank is a frame when its 47 cells have values (R95). -/
theorem publishedFrame_ok (s : State) (f : Frame)
    (h : ∀ a (ha : a < 47), Memory.read s.published a = some (f.bytes[a]'(by rw [f.len]; exact ha))) :
    publishedFrame s = .ok f := by
  have hr := readCells_ok s.rxWbank.other.space 47 (s.bank s.rxWbank.other) 0 47 (by omega)
    fun b _ hb => by
      have := h b (by omega)
      simp only [State.published] at this
      rw [this]
      rfl
  have hl : (List.range' 0 47).map (fun b => (Memory.read (s.bank s.rxWbank.other) b).getD 0#8) =
      f.bytes := by
    refine List.ext_getElem (by simp [f.len]) fun i h1 h2 => ?_
    have := h i (by simpa using h1)
    simp only [State.published] at this
    simp [this]
  rw [hl] at hr
  rw [publishedFrame, hr]
  simp [f.len]

/-- Everything `publishedFrame` can answer with: the 47 bytes of the published bank. -/
theorem publishedFrame_inv {s : State} {f : Frame} (h : publishedFrame s = .ok f) :
    ∀ a (ha : a < 47), Memory.read s.published a = some (f.bytes[a]'(by rw [f.len]; exact ha)) := by
  simp only [publishedFrame] at h
  split at h
  · cases h
  · rename_i bs hbs
    split at h
    · simp only [Except.ok.injEq] at h
      subst h
      intro a ha
      have := (readCells_inv hbs).2.2 a (by simp_all)
      simpa [State.published] using this
    · cases h

/-- The published bank is no frame exactly when one of its 47 cells has no value. -/
theorem publishedFrame_error (s : State) :
    (∃ e, publishedFrame s = .error e) ↔ ∃ a, a < 47 ∧ Memory.read s.published a = none := by
  have key := readCells_error s.rxWbank.other.space 47 (s.bank s.rxWbank.other) 0 47
  have key' : (∃ e, readCells s.rxWbank.other.space 47 (s.bank s.rxWbank.other) 0 47 = .error e) ↔
      ∃ a, a < 47 ∧ Memory.read s.published a = none := by
    rw [key]
    constructor
    · rintro ⟨b, -, hb, h | h⟩
      · omega
      · exact ⟨b, by omega, h⟩
    · rintro ⟨a, ha, h⟩
      exact ⟨a, by omega, by omega, .inr h⟩
  rw [← key']
  simp only [publishedFrame]
  split
  · rename_i e he
    simp [he]
  · rename_i bs hbs
    have hl := (readCells_inv hbs).1
    rw [dif_pos hl]
    simp [hbs]

/-! The sweep assembler. -/

/-- What an emission does (R134): the accumulated points become the Sweep, cells past them keep
their values, the buffer is empty. -/
structure EmitSpec (s : State) (t : State) : Prop where
  shape  : t = s.setSweep t.swOut s.swCount
  points : t.emittedSweep = s.held
  cells  : ∀ a, s.swCount ≤ a → t.swOut.read a = s.swOut.read a
  filled : Memory.filled t.swOut s.swCount
  wf     : Memory.wf s.cfg.fifoDepth s.swOut = true → Memory.wf s.cfg.fifoDepth t.swOut = true

/-- An emission of accumulated points that all have values (R134). -/
theorem emit_ok (s : State) (hn : s.swCount ≤ s.cfg.fifoDepth)
    (hf : Memory.filled s.swBuf s.swCount) : ∃ t, emit s = .ok t ∧ EmitSpec s t := by
  obtain ⟨es, h1, h2, h3⟩ := readCells_points .swbuf s.cfg.fifoDepth s.swBuf s.swCount hn hf
  obtain ⟨m, h4, h5, h6⟩ := writeCells_ok .swout s.cfg.fifoDepth s.swOut 0 es (by omega)
  refine ⟨s.setSweep m s.swCount, by rw [emit, h1]; simp only [h4], rfl, ?_, ?_, ?_, h6⟩
  · rw [State.held, ← h3]
    simp only [State.emittedSweep, setSweep_swOut, setSweep_swOutCount, Memory.points]
    refine List.ext_getElem (by simp [h2]) fun i hi hi' => ?_
    have hi2 : i < es.length := by simpa using hi'
    simp [h5 i, hi2]
  · intro a ha
    simp only [setSweep_swOut]
    rw [h5 a, dif_neg (by omega)]
  · intro a ha
    simp only [setSweep_swOut]
    rw [h5 a, dif_pos (by omega)]
    rfl

/-- An emission faults exactly when one of the accumulated entries has no cell or no value (log
entry 6). -/
theorem emit_error (s : State) :
    (∃ e, emit s = .error e) ↔
      ∃ a, a < s.swCount ∧ (s.cfg.fifoDepth ≤ a ∨ s.swBuf.read a = none) := by
  have key := readCells_error .swbuf s.cfg.fifoDepth s.swBuf 0 s.swCount
  simp only [Nat.zero_le, true_and, Nat.zero_add] at key
  rw [← key, emit]
  split
  · rename_i e he
    simp [he]
  · rename_i es hes
    obtain ⟨h1, h2, -⟩ := readCells_inv hes
    have hn : ¬ ∃ e, writeCells .swout s.cfg.fifoDepth s.swOut 0 es = .error e := by
      rw [writeCells_error]
      rintro ⟨h3, h4⟩
      have := List.length_pos_of_ne_nil h3
      omega
    split
    · rename_i e he
      exact absurd ⟨e, he⟩ hn
    · simp [hes]

/-- The count trigger on a buffer whose entries have values (R133). -/
theorem emitIfFull_ok (s : State) (hn : s.swCount ≤ s.cfg.fifoDepth)
    (hf : Memory.filled s.swBuf s.swCount) :
    (s.swCount = s.cfg.nTarget ∧ ∃ t, emitIfFull s = .ok (t, 1) ∧ EmitSpec s t) ∨
      (s.swCount ≠ s.cfg.nTarget ∧ emitIfFull s = .ok (s, 0)) := by
  by_cases h : s.swCount = s.cfg.nTarget
  · obtain ⟨t, h1, h2⟩ := emit_ok s hn hf
    exact .inl ⟨h, t, by rw [emitIfFull, if_pos h, h1], h2⟩
  · exact .inr ⟨h, by rw [emitIfFull, if_neg h]⟩

/-- The count trigger faults exactly when it emits and the emission faults. -/
theorem emitIfFull_error (s : State) :
    (∃ e, emitIfFull s = .error e) ↔
      s.swCount = s.cfg.nTarget ∧
        ∃ a, a < s.swCount ∧ (s.cfg.fifoDepth ≤ a ∨ s.swBuf.read a = none) := by
  rw [← emit_error, emitIfFull]
  split
  · rename_i h
    cases emit s <;> simp [h]
  · rename_i h
    simp [h]

/-- The wrap trigger on a buffer whose entries have values (R131). -/
theorem closeOnWrap_ok (p : Point) (s : State) (hn : s.swCount ≤ s.cfg.fifoDepth)
    (hf : Memory.filled s.swBuf s.swCount) :
    (closesSweep p s = true ∧ ∃ t, closeOnWrap p s = .ok (t, 1) ∧ EmitSpec s t) ∨
      (closesSweep p s = false ∧ closeOnWrap p s = .ok (s, 0)) := by
  by_cases h : closesSweep p s = true
  · obtain ⟨t, h1, h2⟩ := emit_ok s hn hf
    exact .inl ⟨h, t, by rw [closeOnWrap, if_pos h, h1], h2⟩
  · exact .inr ⟨by simpa using h, by rw [closeOnWrap, if_neg h]⟩

/-- The wrap trigger faults exactly when it emits and the emission faults. -/
theorem closeOnWrap_error (p : Point) (s : State) :
    (∃ e, closeOnWrap p s = .error e) ↔
      closesSweep p s = true ∧
        ∃ a, a < s.swCount ∧ (s.cfg.fifoDepth ≤ a ∨ s.swBuf.read a = none) := by
  rw [← emit_error, closeOnWrap]
  split
  · rename_i h
    cases emit s <;> simp [h]
  · rename_i h
    simp [h]

/-- The state after an append (R133): one more accumulated point. -/
theorem append_held (s : State) (p : Point) :
    (s.setBuffer (s.swBuf.write s.swCount (toEntry p)) (s.swCount + 1)).held = s.held ++ [p] := by
  simp [State.held, Memory.points_write]

/-- The append half of `ADD_POINT` (R131, R133), when the buffer has room. -/
theorem appendPoint_ok (p : Point) (s : State) (hn : s.swCount < s.cfg.nTarget)
    (hf : Memory.filled s.swBuf s.swCount) :
    (inWindow s.cfg p = false ∧ appendPoint p s = .ok (s, 0)) ∨
      (inWindow s.cfg p = true ∧
        appendPoint p s =
          emitIfFull (s.setBuffer (s.swBuf.write s.swCount (toEntry p)) (s.swCount + 1)) ∧
        Memory.filled (s.swBuf.write s.swCount (toEntry p)) (s.swCount + 1)) := by
  by_cases h : inWindow s.cfg p = true
  · refine .inr ⟨h, ?_, Memory.filled_write _ hf⟩
    have hb := config_bounds s.cfg
    rw [appendPoint, if_pos h]
    simp only [writeCells]
    rw [if_pos (by omega)]
  · exact .inl ⟨by simpa using h, by rw [appendPoint, if_neg h]⟩

/-- The append half of `ADD_POINT` faults exactly when its point has no cell, or fills a buffer with
an entry that has no value. -/
theorem appendPoint_error (p : Point) (s : State) :
    (∃ e, appendPoint p s = .error e) ↔
      inWindow s.cfg p = true ∧
        (s.cfg.fifoDepth ≤ s.swCount ∨
          (s.swCount + 1 = s.cfg.nTarget ∧ ∃ a, a < s.swCount ∧ s.swBuf.read a = none)) := by
  have hb := config_bounds s.cfg
  rw [appendPoint]
  split
  · rename_i hw
    by_cases hd : s.swCount < s.cfg.fifoDepth
    · simp only [hw, true_and, writeCells, if_pos hd, emitIfFull_error, setBuffer_swCount,
        setBuffer_cfg, setBuffer_swBuf, Memory.read_write]
      constructor
      · rintro ⟨h1, a, h2, h3⟩
        refine .inr ⟨h1, a, ?_⟩
        split at h3
        · rcases h3 with h3 | h3
          · omega
          · cases h3
        · rcases h3 with h3 | h3
          · omega
          · exact ⟨by omega, h3⟩
      · rintro (h | ⟨h1, a, h2, h3⟩)
        · omega
        · exact ⟨h1, a, by omega, .inr (by rw [if_neg (by omega)]; exact h3)⟩
    · simp only [writeCells, if_neg hd]
      exact iff_of_true ⟨_, rfl⟩ ⟨hw, .inl (by omega)⟩
  · rename_i hw
    simp [hw]

/-- The accumulated points after the wrap test of `ADD_POINT p` (R131). -/
def baseOf (p : Point) (s : State) : List Point := if closesSweep p s = true then [] else s.held

/-- The accumulated points after the append, before the count trigger (R131, R133). -/
def nowOf (p : Point) (s : State) : List Point :=
  if inWindow s.cfg p = true then baseOf p s ++ [p] else baseOf p s

/-- What offering a point does (R131 to R134): what changes, the cells stored to, and the
accumulated and emitted points in its three outcomes (count trigger, wrap trigger, neither). -/
structure OfferSpec (p : Point) (s t : State) (k : Nat) : Prop where
  shape : t = { s with
    swBuf := t.swBuf, swCount := t.swCount, swLastRel := BitVec.ofNat 16 (rel s.cfg p.angleCd)
    swLastValid := true, swOut := t.swOut, swOutCount := t.swOutCount, sweepReady := t.sweepReady }
  cell : ∀ a, t.swBuf.read a =
    if inWindow s.cfg p = true ∧ a = (baseOf p s).length then some (toEntry p) else s.swBuf.read a
  full : (nowOf p s).length = s.cfg.nTarget →
    k = 1 ∧ t.held = [] ∧ t.emittedSweep = nowOf p s ∧ t.sweepReady = true ∧
      ∀ a, s.cfg.nTarget ≤ a → t.swOut.read a = s.swOut.read a
  closed : (nowOf p s).length ≠ s.cfg.nTarget → closesSweep p s = true →
    k = 1 ∧ t.held = nowOf p s ∧ t.emittedSweep = s.held ∧ t.sweepReady = true ∧
      ∀ a, s.swCount ≤ a → t.swOut.read a = s.swOut.read a
  kept : (nowOf p s).length ≠ s.cfg.nTarget → closesSweep p s = false →
    k = 0 ∧ t.held = nowOf p s ∧ t.swOut = s.swOut ∧ t.swOutCount = s.swOutCount ∧
      t.sweepReady = s.sweepReady
  countLt : t.swCount < s.cfg.nTarget
  bufFilled : Memory.filled t.swBuf t.swCount
  outFilled : k = 1 → Memory.filled t.swOut t.swOutCount
  bufWf : Memory.wf s.cfg.fifoDepth s.swBuf = true → Memory.wf s.cfg.fifoDepth t.swBuf = true
  outWf : Memory.wf s.cfg.fifoDepth s.swOut = true → Memory.wf s.cfg.fifoDepth t.swOut = true

/-- The number of accumulated points. -/
@[simp] theorem held_length (s : State) : s.held.length = s.swCount := Memory.points_length _ _

/-- Offering a point when the buffer has room and its entries have values (R131). -/
theorem offerPoint_ok (p : Point) (s : State) (hn : s.swCount < s.cfg.nTarget)
    (hf : Memory.filled s.swBuf s.swCount) :
    ∃ t k, offerPoint p s = .ok (t, k) ∧ OfferSpec p s t k := by
  have hb := config_bounds s.cfg
  have hl := held_length s
  -- the state after the wrap test: its buffer is the old one, its count that of `baseOf`
  have hclose : ∃ u j, closeOnWrap p s = .ok (u, j) ∧
      u.swCount = (baseOf p s).length ∧ u.held = baseOf p s ∧
      u = { s with
        swOut := u.swOut, swOutCount := u.swOutCount, sweepReady := u.sweepReady
        swCount := u.swCount } ∧
      (Memory.wf s.cfg.fifoDepth s.swOut = true → Memory.wf s.cfg.fifoDepth u.swOut = true) ∧
      ((closesSweep p s = true ∧ j = 1 ∧ u.emittedSweep = s.held ∧ u.sweepReady = true ∧
          u.swOutCount = s.swCount ∧
          (∀ a, s.swCount ≤ a → u.swOut.read a = s.swOut.read a) ∧
          Memory.filled u.swOut u.swOutCount ∧ 0 < s.swCount) ∨
        (closesSweep p s = false ∧ j = 0 ∧ u = s)) := by
    rcases closeOnWrap_ok p s (by omega) hf with ⟨h, u, h1, h2⟩ | ⟨h, h1⟩
    · have e := h2.shape
      have hc : 0 < s.swCount := by simp only [closesSweep, Bool.and_eq_true, decide_eq_true_eq] at h; exact h.2
      refine ⟨u, 1, h1, ?_, ?_, ?_, h2.wf, .inl ⟨h, rfl, h2.points, ?_, ?_, h2.cells, ?_, hc⟩⟩
      · rw [e]; simp [baseOf, h]
      · rw [e]; simp [baseOf, h, State.held]
      · rw [e]; rfl
      · rw [e]; rfl
      · rw [e]; rfl
      · have : u.swOutCount = s.swCount := by rw [e]; rfl
        rw [this]; exact h2.filled
    · exact ⟨s, 0, h1, by simp [baseOf, h, hl], by simp [baseOf, h], rfl, id, .inr ⟨h, rfl, rfl⟩⟩
  obtain ⟨u, j, hu, hc, hh, he, hw, hcase⟩ := hclose
  have hcfg : u.cfg = s.cfg := by rw [he]
  have hbuf : u.swBuf = s.swBuf := by rw [he]
  have hle : (baseOf p s).length ≤ s.swCount := by
    unfold baseOf; split <;> simp [hl]
  have hbf : Memory.filled s.swBuf u.swCount := fun a ha => hf a (by omega)
  obtain ⟨v, hv⟩ : ∃ v, v = u.track (rel s.cfg p.angleCd) := ⟨_, rfl⟩
  have hvn : v.swCount < v.cfg.nTarget := by
    rw [hv]
    show u.swCount < u.cfg.nTarget
    rw [hcfg]
    omega
  have hvh : v.held = baseOf p s := by rw [hv]; exact hh
  have hvo : v.swOut = u.swOut ∧ v.swOutCount = u.swOutCount ∧ v.sweepReady = u.sweepReady ∧
      v.emittedSweep = u.emittedSweep ∧ v.swCount = u.swCount ∧ v.swBuf = s.swBuf :=
    by rw [hv]; exact ⟨rfl, rfl, rfl, rfl, rfl, hbuf⟩
  have hve : v = { s with
      swLastRel := BitVec.ofNat 16 (rel s.cfg p.angleCd), swLastValid := true, swOut := v.swOut
      swOutCount := v.swOutCount, sweepReady := v.sweepReady, swCount := v.swCount } := by
    rw [hv, he]
    rfl
  have hvc : v.cfg = s.cfg := by rw [hv]; exact hcfg
  obtain ⟨o1, o2, o3, o4, o5, o6⟩ := hvo
  rw [← o5] at hc
  rw [← o6, ← o5] at hbf
  rcases appendPoint_ok p v hvn hbf with ⟨hwin, ha⟩ | ⟨hwin, ha, hfill⟩
  · rw [hvc] at hwin
    have hnow : nowOf p s = baseOf p s := by simp [nowOf, hwin]
    refine ⟨v, j + 0, by rw [offerPoint, hu]; simp only []; rw [← hv, ha], ?_⟩
    refine ⟨by rw [hve], fun a => by rw [o6]; simp [hwin], ?_, ?_, ?_, by omega, ?_, ?_, ?_, ?_⟩
    · intro h; rw [hnow] at h; omega
    · intro h1 h2
      rcases hcase with ⟨-, g1, g2, g3, g4, g5, -, -⟩ | ⟨g, -⟩
      · rw [hnow, o4, o3, o1]; exact ⟨by omega, hvh, g2, g3, g5⟩
      · rw [h2] at g; cases g
    · intro h1 h2
      rcases hcase with ⟨g, -⟩ | ⟨-, g1, g2⟩
      · rw [h2] at g; cases g
      · rw [hnow, o1, o2, o3, g2]; exact ⟨by omega, hvh, rfl, rfl, rfl⟩
    · rw [o6]; intro a h; exact hf a (by omega)
    · intro hk
      rcases hcase with ⟨-, g1, g2, g3, g4, g5, g6, -⟩ | ⟨-, g1, -⟩
      · rw [o1, o2]; exact g6
      · omega
    · rw [o6]; exact id
    · rw [o1]; exact hw
  · rw [hvc] at hwin
    have hnow : nowOf p s = baseOf p s ++ [p] := by simp [nowOf, hwin]
    have hlen : (nowOf p s).length = v.swCount + 1 := by rw [hnow]; simp [hc]
    have hwh : (v.setBuffer (v.swBuf.write v.swCount (toEntry p)) (v.swCount + 1)).held = nowOf p s := by
      rw [append_held, hvh, hnow]
    have hcell : ∀ a, (v.swBuf.write v.swCount (toEntry p)).read a =
        if inWindow s.cfg p = true ∧ a = (baseOf p s).length then some (toEntry p)
        else s.swBuf.read a := by
      intro a; rw [Memory.read_write, o6]; simp [hwin, hc]
    have hbwf : Memory.wf s.cfg.fifoDepth s.swBuf = true →
        Memory.wf s.cfg.fifoDepth (v.swBuf.write v.swCount (toEntry p)) = true := by
      intro h; rw [o6]; exact Memory.wf_write _ h (by omega)
    rcases emitIfFull_ok (v.setBuffer (v.swBuf.write v.swCount (toEntry p)) (v.swCount + 1))
      (by simp only [setBuffer_swCount, setBuffer_cfg, hvc]; omega) hfill with ⟨h, t, h1, h2⟩ | ⟨h, h1⟩
    · simp only [setBuffer_swCount, setBuffer_cfg, hvc] at h
      have hw0 : closesSweep p s = false ∧ j = 0 ∧ u = s := by
        rcases hcase with ⟨g1, -, -, -, -, -, -, g⟩ | g
        · have : baseOf p s = [] := by simp [baseOf, g1]
          simp [this] at hc
          omega
        · exact g
      obtain ⟨w1, rfl, w2⟩ := hw0
      refine ⟨t, 0 + 1, by rw [offerPoint, hu]; simp only []; rw [← hv, ha, h1], ?_⟩
      have e := h2.shape
      have tb : t.swBuf = v.swBuf.write v.swCount (toEntry p) := by rw [e]; rfl
      have tc : t.swCount = 0 := by rw [e]; rfl
      have tn : t.swOutCount = v.swCount + 1 := by rw [e]; rfl
      have hcells := h2.cells
      simp only [setBuffer_swCount, setBuffer_swOut, o1, w2] at hcells
      refine ⟨?_, by rw [tb]; exact hcell, ?_, ?_, ?_, by omega, ?_, ?_, by rw [tb]; exact hbwf, ?_⟩
      · rw [e, hve]; rfl
      · intro _
        refine ⟨rfl, ?_, by rw [h2.points, hwh], by rw [e]; rfl, by rw [← h]; exact hcells⟩
        rw [State.held, tc]; rfl
      · intro hh; omega
      · intro hh; omega
      · rw [tc]; exact Memory.filled_zero _
      · intro _; rw [tn]; exact h2.filled
      · have := h2.wf
        rw [setBuffer_cfg, setBuffer_swOut, hvc, o1, w2] at this
        exact this
    · simp only [setBuffer_swCount, setBuffer_cfg, hvc] at h
      refine ⟨_, j + 0, by rw [offerPoint, hu]; simp only []; rw [← hv, ha, h1], ?_⟩
      refine ⟨by rw [hve]; rfl, hcell, ?_, ?_, ?_, ?_, hfill, ?_, hbwf, ?_⟩
      · intro hh; omega
      · intro _ hh
        rcases hcase with ⟨-, g1, g2, g3, g4, g5, -, -⟩ | ⟨g, -⟩
        · refine ⟨by omega, hwh, ?_, ?_, ?_⟩
          · rw [← g2, ← o4]; rfl
          · rw [setBuffer_sweepReady, o3, g3]
          · rw [setBuffer_swOut, o1]; exact g5
        · rw [hh] at g; cases g
      · intro _ hh
        rcases hcase with ⟨g, -⟩ | ⟨-, g1, g2⟩
        · rw [hh] at g; cases g
        · refine ⟨by omega, hwh, ?_, ?_, ?_⟩ <;> simp [o1, o2, o3, g2]
      · simp only [setBuffer_swCount]; omega
      · intro hk
        rcases hcase with ⟨-, g1, g2, g3, g4, g5, g6, -⟩ | ⟨-, g1, -⟩
        · simp only [setBuffer_swOut, setBuffer_swOutCount, o1, o2]; exact g6
        · omega
      · simp only [setBuffer_swOut, o1]; exact hw

/-- Offering a point faults exactly when the Sweep it closes has an entry without a cell or value, or,
without a wrap, its append faults (after a wrap the buffer is empty and the append has its cell). -/
theorem offerPoint_error (p : Point) (s : State) :
    (∃ e, offerPoint p s = .error e) ↔
      (closesSweep p s = true ∧
        ∃ a, a < s.swCount ∧ (s.cfg.fifoDepth ≤ a ∨ s.swBuf.read a = none)) ∨
      (closesSweep p s = false ∧ inWindow s.cfg p = true ∧
        (s.cfg.fifoDepth ≤ s.swCount ∨
          (s.swCount + 1 = s.cfg.nTarget ∧ ∃ a, a < s.swCount ∧ s.swBuf.read a = none))) := by
  have hb := config_bounds s.cfg
  have hc := closeOnWrap_error p s
  rw [offerPoint]
  cases hw : closesSweep p s with
  | true =>
    simp only [hw, true_and, Bool.true_eq_false, false_and, or_false] at hc ⊢
    rw [← hc]
    cases ho : closeOnWrap p s with
    | error e => simp
    | ok x =>
      obtain ⟨t, k⟩ := x
      -- the wrap emitted, so the buffer is empty and the append has its cell
      obtain ⟨h1, h2⟩ : t.swCount = 0 ∧ t.cfg = s.cfg := by
        rw [closeOnWrap, if_pos hw] at ho
        split at ho
        · cases ho
        · rename_i u hu
          cases ho
          rw [emit] at hu
          split at hu
          · cases hu
          · split at hu
            · cases hu
            · cases hu
              exact ⟨rfl, rfl⟩
      have hn : ¬ ∃ e, appendPoint p (t.track (rel s.cfg p.angleCd)) = .error e := by
        rw [appendPoint_error]
        simp only [track_cfg, track_swCount, h1, h2]
        omega
      cases ha : appendPoint p (t.track (rel s.cfg p.angleCd)) with
      | error e => exact absurd ⟨e, ha⟩ hn
      | ok y => simp [ha]
  | false =>
    have ho : closeOnWrap p s = .ok (s, 0) := by rw [closeOnWrap, if_neg (by simp [hw])]
    have ha := appendPoint_error p (s.track (rel s.cfg p.angleCd))
    simp only [track_cfg, track_swCount, track_swBuf] at ha
    simp only [ho, Bool.false_eq_true, false_and, true_and, false_or]
    rw [← ha]
    cases appendPoint p (s.track (rel s.cfg p.angleCd)) <;> simp

/-- What the sweep operations leave alone, whatever the state (R10): everything but the assembler's
elements. -/
def SweepFrame (s t : State) : Prop :=
  t = { s with
    swBuf := t.swBuf, swCount := t.swCount, swLastRel := t.swLastRel, swLastValid := t.swLastValid
    swOut := t.swOut, swOutCount := t.swOutCount, sweepReady := t.sweepReady }

theorem SweepFrame.trans {s t u : State} (h : SweepFrame s t) (h' : SweepFrame t u) :
    SweepFrame s u := by
  unfold SweepFrame at *
  rw [h', h]

theorem setBuffer_sweepFrame (s : State) (m : Memory 40) (n : Nat) :
    SweepFrame s (s.setBuffer m n) := rfl

theorem track_sweepFrame (s : State) (r : Nat) : SweepFrame s (s.track r) := rfl

theorem emit_sweepFrame {s t : State} (h : emit s = .ok t) : SweepFrame s t := by
  unfold emit at h
  split at h
  · cases h
  · split at h
    · cases h
    · cases h
      rfl

theorem closeOnWrap_sweepFrame {p : Point} {s t : State} {k : Nat}
    (h : closeOnWrap p s = .ok (t, k)) : SweepFrame s t := by
  unfold closeOnWrap at h
  split at h
  · split at h
    · cases h
    · rename_i hu
      cases h
      exact emit_sweepFrame hu
  · cases h
    rfl

theorem emitIfFull_sweepFrame {s t : State} {k : Nat} (h : emitIfFull s = .ok (t, k)) :
    SweepFrame s t := by
  unfold emitIfFull at h
  split at h
  · split at h
    · cases h
    · rename_i hu
      cases h
      exact emit_sweepFrame hu
  · cases h
    rfl

theorem appendPoint_sweepFrame {p : Point} {s t : State} {k : Nat}
    (h : appendPoint p s = .ok (t, k)) : SweepFrame s t := by
  unfold appendPoint at h
  split at h
  · split at h
    · cases h
    · exact (setBuffer_sweepFrame _ _ _).trans (emitIfFull_sweepFrame h)
  · cases h
    rfl

/-- Offering a point, from any state, changes the assembler's elements only. -/
theorem offerPoint_sweepFrame {p : Point} {s t : State} {k : Nat}
    (h : offerPoint p s = .ok (t, k)) : SweepFrame s t := by
  unfold offerPoint at h
  split at h
  · cases h
  · rename_i h1
    split at h
    · cases h
    · rename_i h2
      cases h
      exact (closeOnWrap_sweepFrame h1).trans
        ((track_sweepFrame _ _).trans (appendPoint_sweepFrame h2))

/-- Offering points, from any state, changes the assembler's elements only. -/
theorem offerPoints_sweepFrame {ps : List Point} {s t : State} {k : Nat}
    (h : offerPoints ps s = .ok (t, k)) : SweepFrame s t := by
  induction ps generalizing s t k with
  | nil =>
    cases h
    rfl
  | cons p ps ih =>
    unfold offerPoints at h
    split at h
    · cases h
    · rename_i h1
      split at h
      · cases h
      · rename_i h2
        cases h
        exact (offerPoint_sweepFrame h1).trans (ih h2)

/-! The safety layer. -/

@[simp] theorem neutralise_actOut (s : State) :
    (neutralise s).actOut = s.actOut ++ [.write (neutralPos s.cfg), .setNeutral] := by
  simp [neutralise]

@[simp] theorem neutralise_actMotor (s : State) : (neutralise s).actMotor = .neutral := rfl

@[simp] theorem neutralise_actServo (s : State) :
    (neutralise s).actServo = .pos (neutralPos s.cfg) := rfl

/-- What neutralising does (R154): the two mirrors and the two calls, nothing else. -/
theorem neutralise_eq (s : State) : neutralise s =
    { s with
      actServo := .pos (neutralPos s.cfg), actMotor := .neutral
      actOut := s.actOut ++ [.write (neutralPos s.cfg)] ++ [.setNeutral] } := rfl

/-- What `TOGGLE_PAUSE` and `ESTOP_EDGE` share (R157, R158). -/
theorem toggleLatch_eq (s : State) : toggleLatch s =
    { s with
      estopped := !s.estopped, actServo := .pos (neutralPos s.cfg), actMotor := .neutral
      actOut := s.actOut ++ [.write (neutralPos s.cfg)] ++ [.setNeutral] } := rfl

end Sys2Proof.Machine
end

