-- ==== Sys2Proof/Laws/PerInstr.lean ====
section
/-! SUPPORT. Statements about the operations as terms, one lemma per constructor. Family `PortLaw`:
the word of an operation arrives at the operation's own port (30_encoding.md R69, R70). -/

namespace Sys2Proof.Laws.PortLaw

/-- An operation is encoded as a word of the port R70 gives it. -/
def Statement (i : Instr) : Prop := (encode i).port = i.port

theorem rxByte (data : Byte) : Statement (.rxByte data) := rfl
theorem rxError : Statement .rxError := rfl
theorem estopEdge : Statement .estopEdge := rfl
theorem beginRx (baud : BitVec 32) : Statement (.beginRx baud) := rfl
theorem takeFrame : Statement .takeFrame := rfl
theorem decodeFrame (f : Frame) : Statement (.decodeFrame f) := rfl
theorem addBatch (b : Batch) : Statement (.addBatch b) := rfl
theorem takeSweep : Statement .takeSweep := rfl
theorem sweepInvalidate : Statement .sweepInvalidate := rfl
theorem addPoint (p : Point) : Statement (.addPoint p) := rfl
theorem setForward (power : Half) : Statement (.setForward power) := rfl
theorem setReverse (power : Half) : Statement (.setReverse power) := rfl
theorem setSteering (angle : Half) : Statement (.setSteering angle) := rfl
theorem pause : Statement .pause := rfl
theorem unpause : Statement .unpause := rfl
theorem togglePause : Statement .togglePause := rfl

end Sys2Proof.Laws.PortLaw
end

