-- ==== Sys2Proof/Tests/Slice0.lean ====
section
/-! SUPPORT. The model's own tests. The expected values are those of spec/95_test_vectors.md (named
V-…) and of the examples in the rules (named R…); each test is one step or one pure function. The
second part has, for every obligation with hypotheses, inputs that meet all of them. -/

namespace Sys2Proof.Tests

open Sys2Proof Sys2Proof.Machine

/-! Helpers. -/

/-- The next state of an outcome. -/
def nextOf : Host.Outcome State Fault Refusal → Option State
  | .next s => some s
  | _ => none

/-- The vector V-D1. -/
def vd1Bytes : List Byte :=
  [0x54#8, 0x2C#8, 0xE8#8, 0x03#8, 0xE8#8, 0x03#8, 0xC8#8, 0xF2#8, 0x03#8, 0xC9#8, 0xFC#8, 0x03#8] ++
  [0xCA#8, 0x06#8, 0x04#8, 0xCB#8, 0x10#8, 0x04#8, 0xCC#8, 0x1A#8, 0x04#8, 0xCD#8, 0x24#8, 0x04#8] ++
  [0xCE#8, 0x2E#8, 0x04#8, 0xCF#8, 0x38#8, 0x04#8, 0xD0#8, 0x42#8, 0x04#8, 0xD1#8, 0x4C#8, 0x04#8] ++
  [0xD2#8, 0x56#8, 0x04#8, 0xD3#8, 0x34#8, 0x08#8, 0x45#8, 0x23#8, 0x01#8, 0x00#8, 0x43#8]

/-- The vector V-D2. -/
def vd2Bytes : List Byte :=
  [0x54#8, 0x2C#8, 0xD8#8, 0x8B#8, 0xF4#8, 0x01#8, 0x64#8, 0xF5#8, 0x01#8, 0x64#8, 0xF6#8, 0x01#8] ++
  [0x64#8, 0xF7#8, 0x01#8, 0x64#8, 0xF8#8, 0x01#8, 0x64#8, 0xF9#8, 0x01#8, 0x64#8, 0xFA#8, 0x01#8] ++
  [0x64#8, 0xFB#8, 0x01#8, 0x64#8, 0xFC#8, 0x01#8, 0x64#8, 0xFD#8, 0x01#8, 0x64#8, 0xFE#8, 0x01#8] ++
  [0x64#8, 0xFF#8, 0x01#8, 0x64#8, 0x2C#8, 0x01#8, 0x00#8, 0x00#8, 0x00#8, 0x00#8, 0x15#8]

/-- The payload of V-E4. -/
def ve4Bytes : List Byte :=
  [0xE8#8, 0x03#8, 0xE8#8, 0x03#8, 0xC8#8, 0x4C#8, 0x04#8, 0xF2#8, 0x03#8, 0xC9#8, 0xB0#8, 0x04#8] ++
  [0xFC#8, 0x03#8, 0xCA#8, 0x14#8, 0x05#8, 0x06#8, 0x04#8, 0xCB#8, 0x78#8, 0x05#8, 0x10#8, 0x04#8] ++
  [0xCC#8, 0xDC#8, 0x05#8, 0x1A#8, 0x04#8, 0xCD#8, 0x40#8, 0x06#8, 0x24#8, 0x04#8, 0xCE#8, 0xA4#8] ++
  [0x06#8, 0x2E#8, 0x04#8, 0xCF#8, 0x08#8, 0x07#8, 0x38#8, 0x04#8, 0xD0#8, 0x6C#8, 0x07#8, 0x42#8] ++
  [0x04#8, 0xD1#8, 0xD0#8, 0x07#8, 0x4C#8, 0x04#8, 0xD2#8, 0x34#8, 0x08#8, 0x56#8, 0x04#8, 0xD3#8]

def vd1 : Frame := ⟨vd1Bytes, rfl⟩
def vd2 : Frame := ⟨vd2Bytes, rfl⟩

/-- A frame with one byte changed. -/
def altered (f : Frame) (i : Nat) (v : Byte) : Frame := ⟨f.bytes.set i v, by simp [f.len]⟩

/-- A bank whose first cells hold these bytes. -/
def bankOf (bs : List Byte) : List Host.Cell := (List.range bs.length).zip bs

/-- A point memory whose first cells hold these points. -/
def pointMem (ps : List Point) : Memory 40 := (List.range ps.length).zip (ps.map toEntry)

/-- The default record with a target (the FIFO as deep), a window start and a window width. -/
def params (n start width : Nat) : Params :=
  { Config.defaultParams with nTarget := n, fifoDepth := n, spanStart := start, spanWidth := width }

def cfg1 : Config := ⟨params 1 0 36000, by decide⟩
def cfg2 : Config := ⟨params 2 0 36000, by decide⟩
def cfg30 : Config := ⟨params 30 0 36000, by decide⟩
def cfg50 : Config := ⟨params 50 0 1000, by decide⟩

/-- The default record with the other frame layout. -/
def cfgLd06 : Config := ⟨{ Config.defaultParams with layout := .ld06 }, by decide⟩

/-- A receiver in phase FRAME that has stored these bytes in `RXBANK0`. -/
def receiving (bs : List Byte) (n : Fin 47) : State :=
  { State.reset with rxPhase := .frame, rxIdx := n, rxBank0 := bankOf bs }

/-- V-D1 pending in `RXBANK0`. -/
def pending : State :=
  { State.reset with rxPhase := .frame, rxWbank := .bank1, rxBank0 := bankOf vd1Bytes, frameReady := true }

/-- An assembler holding these points, the last offered at relative angle `last`. -/
def assembling (c : Config) (ps : List Point) (last : Half) : State :=
  { State.resetWith c with
    swBuf := pointMem ps, swCount := ps.length, swLastRel := last, swLastValid := true }

/-- A Sweep ready in `SWOUT`. -/
def sweepPending (ps : List Point) : State :=
  { State.reset with swOut := pointMem ps, swOutCount := ps.length, sweepReady := true }

/-- Running, no call made yet (P5). -/
def running : State := { State.reset with estopped := false }

/-- A batch with angles `a0 + step * i` (95_test_vectors.md 2.4). -/
def ramp (a0 step : Nat) : Batch :=
  { points := (List.range 12).map fun i =>
      ⟨BitVec.ofNat 16 ((a0 + step * i) % 36000), BitVec.ofNat 16 (1000 + i), 50#8⟩
    len := by simp }

/-! WellFormed: each check refuses an ill-formed term. -/

theorem test_addPoint_wellFormed : (Instr.addPoint ⟨35999#16, 1#16, 1#8⟩).wellFormed = true := by decide
theorem test_addPoint_illFormed : (Instr.addPoint ⟨36000#16, 1#16, 1#8⟩).wellFormed = false := by decide
theorem test_addBatch_wellFormed : (Instr.addBatch (ramp 35999 0)).wellFormed = true := by decide
theorem test_addBatch_illFormed :
    (Instr.addBatch ⟨List.replicate 11 ⟨0#16, 0#16, 0#8⟩ ++ [⟨36000#16, 0#16, 0#8⟩], rfl⟩).wellFormed =
      false := by decide
theorem test_config_refused : Config.build (params 0 0 36000) = none := by decide
theorem test_config_built : (Config.build (params 1 35999 36000)).isSome = true := by decide

/-! Decoding: words written out from the encodings of R66, R69 to R72. -/

theorem test_decode_rxByte : decode (.rx 0b001010100#9) = .instr (.rxByte 0x54#8) := by decide
theorem test_decode_rxError : decode (.rx 0b100000000#9) = .instr .rxError := by decide
theorem test_decode_rxError_data : decode (.rx 0b111111111#9) = .instr .rxError := by decide
theorem test_decode_estopEdge : decode (.estop 1#1) = .instr .estopEdge := by decide
theorem test_decode_beginRx :
    decode (.cmd [0x01#8, 0x00#8, 0x84#8, 0x03#8, 0x00#8]) = .instr (.beginRx 230400#32) := by decide
theorem test_decode_takeFrame : decode (.cmd [0x02#8]) = .instr .takeFrame := by decide
theorem test_decode_decodeFrame : decode (.cmd (0x03#8 :: vd1Bytes)) = .instr (.decodeFrame vd1) := rfl
theorem test_decode_addBatch :
    decode (.cmd (0x04#8 :: ve4Bytes)) = .instr (.addBatch (unpack .doc vd1)) := by decide +kernel
theorem test_decode_takeSweep : decode (.cmd [0x05#8]) = .instr .takeSweep := by decide
theorem test_decode_sweepInvalidate : decode (.cmd [0x06#8]) = .instr .sweepInvalidate := by decide
theorem test_decode_addPoint :
    decode (.cmd [0x07#8, 0x8D#8, 0x8C#8, 0xF8#8, 0x01#8, 0x64#8]) =
      .instr (.addPoint ⟨35981#16, 504#16, 100#8⟩) := by decide
theorem test_decode_setForward :
    decode (.cmd [0x10#8, 0x28#8, 0x23#8]) = .instr (.setForward 9000#16) := by decide
theorem test_decode_setForward_negative :
    decode (.cmd [0x10#8, 0xFB#8, 0xFF#8]) = .instr (.setForward (BitVec.ofInt 16 (-5))) := by decide
theorem test_decode_setReverse :
    decode (.cmd [0x11#8, 0xD0#8, 0x07#8]) = .instr (.setReverse 2000#16) := by decide
theorem test_decode_setSteering :
    decode (.cmd [0x12#8, 0x00#8, 0x80#8]) = .instr (.setSteering (BitVec.ofInt 16 (-32768))) := by decide
theorem test_decode_pause : decode (.cmd [0x18#8]) = .instr .pause := by decide
theorem test_decode_unpause : decode (.cmd [0x19#8]) = .instr .unpause := by decide
theorem test_decode_togglePause : decode (.cmd [0x1A#8]) = .instr .togglePause := by decide
theorem test_decode_illegal_opcodes :
    ∀ op ∈ [0x00#8, 0x08#8, 0x13#8, 0x1B#8, 0xFF#8], decode (.cmd [op]) = .illegalOpcode op := by decide
theorem test_decode_wrong_length :
    decode (.cmd [0x02#8, 0x00#8]) = .wrongLength [0x02#8, 0x00#8] := by decide

/-- The host's view of the rows (log entry 13). -/
theorem test_table_rows :
    decodeTableWord 16 0x054 = some (.rxByte 0x54#8) ∧ decodeTableWord 16 0x100 = some .rxError ∧
    decodeTableWord 1 1 = some .estopEdge ∧ decodeTableWord 8 0x01 = some (.beginRx 0#32) ∧
    decodeTableWord 40 0x0003840001 = some (.beginRx 230400#32) ∧
    decodeTableWord 8 0x07 = some (.addPoint ⟨0#16, 0#16, 0#8⟩) ∧
    decodeTableWord 8 0x1A = some .togglePause ∧ decodeTableWord 8 0x00 = none := by decide

/-- The word put first is the one the next step runs. -/
theorem test_withFetchWord : step (State.reset.withFetchWord 8 0x18) = exec .pause State.reset := rfl

/-- A long word fetches whole: 47 zero bytes are `DECODE`d to `HeaderMismatch` (V-D14). -/
theorem test_withFetchWord_long :
    (nextOf (step (State.reset.withFetchWord 8 0x03))).map State.resOut =
      some [.err .headerMismatch] := by decide +kernel

/-! Reset (R30). -/

theorem test_reset_memories :
    Memory.wf 47 State.reset.rxBank0 && Memory.wf 47 State.reset.rxBank1 &&
      Memory.wf 24 State.reset.swBuf && Memory.wf 24 State.reset.swOut = true := by decide
theorem test_reset_gate :
    State.reset.estopped = true ∧ State.reset.actMotor = .none ∧ State.reset.actServo = .none := by decide

/-! The checksum (V-C1 to V-C10). -/

theorem test_crc_short :
    crc8 Config.defaultCrc [] = 0x00#8 ∧ crc8 Config.defaultCrc [0x01#8] = 0x4D#8 ∧
    crc8 Config.defaultCrc [0x80#8] = 0x7C#8 ∧ crc8 Config.defaultCrc [0x54#8, 0x2C#8] = 0xD8#8 := by
  decide +kernel
theorem test_crc_nine :
    crc8 Config.defaultCrc [0x31#8, 0x32#8, 0x33#8, 0x34#8, 0x35#8, 0x36#8, 0x37#8, 0x38#8, 0x39#8] =
      0xC3#8 := by decide +kernel
theorem test_crc_frame :
    crc8 Config.defaultCrc (vd1Bytes.take 46) = 0x43#8 ∧ crc8 Config.defaultCrc vd1Bytes = 0x00#8 := by
  decide +kernel

/-! The ingestion buffer. -/

/-- V-I2: arming. -/
theorem test_begin :
    (nextOf (exec (.beginRx 230400#32) State.reset)).map
      (fun t => (t.rxPhase, t.rxIdx.val, t.rxWbank, t.frameReady, t.rxBaud)) =
      some (.probe, 0, .bank0, false, 230400#32) := by decide

/-- V-I8: `BEGIN` while armed drops a pending frame and leaves the bank number. -/
theorem test_begin_restart :
    (nextOf (exec (.beginRx 2#32) { pending with rxIdx := 1 })).map
      (fun t => (t.rxPhase, t.rxIdx.val, t.rxWbank, t.frameReady, t.rxBaud)) =
      some (.probe, 0, .bank1, false, 2#32) := by decide

/-- R92's example: byte 3 of a frame. -/
theorem test_rxByte_stores :
    (nextOf (exec (.rxByte 0xE8#8) (receiving [0x54#8, 0x2C#8, 0x00#8] 3))).map
      (fun t => (t.rxIdx.val, Memory.read t.rxBank0 3, t.frameReady)) =
      some (4, some 0xE8#8, false) := by decide

/-- V-I3: the 47th byte publishes. -/
theorem test_rxByte_publishes :
    (nextOf (exec (.rxByte 0x43#8) (receiving (vd1Bytes.take 46) 46))).map
      (fun t => (t.rxIdx.val, t.rxWbank, t.frameReady, t.rxBank0)) =
      some (0, .bank1, true, bankOf vd1Bytes) := by decide +kernel

/-- R94's example: an error in mid-frame. -/
theorem test_rxError_frame :
    (nextOf (exec .rxError (receiving (vd1Bytes.take 10) 10))).map
      (fun t => (t.rxPhase, t.rxIdx.val, t.frameReady, t.rxBank0)) =
      some (.frame, 0, false, bankOf (vd1Bytes.take 10)) := by decide +kernel

/-- V-I7: an error during the probe. -/
theorem test_rxError_probe :
    (nextOf (exec .rxError { State.reset with rxPhase := .probe })).map
      (fun t => (t.rxPhase, t.rxIdx.val)) = some (.frame, 0) := by decide

/-- V-I3: the published frame is taken. -/
theorem test_takeFrame :
    (nextOf (exec .takeFrame pending)).map (fun t => (t.frameReady, t.resOut)) =
      some (false, [.frame vd1]) := by decide +kernel

/-- V-I1: nothing to take. -/
theorem test_takeFrame_none :
    (nextOf (exec .takeFrame State.reset)).map State.resOut = some [.noFrame] := by decide

/-! The packet decoder. -/

/-- V-D1, V-D2: the angles of a frame, without and with a wrap inside. -/
theorem test_decode_angles :
    (unpack .doc vd1).points.map (fun p => p.angleCd.toNat) =
      [1000, 1100, 1200, 1300, 1400, 1500, 1600, 1700, 1800, 1900, 2000, 2100] ∧
    (unpack .doc vd2).points.map (fun p => p.angleCd.toNat) =
      [35800, 35845, 35890, 35936, 35981, 27, 72, 118, 163, 209, 254, 300] := by decide +kernel

/-- V-D1 (its last point), V-D3, V-D4, V-D5: the four results of `DECODE`. -/
theorem test_decode_results :
    (match decodeResult Config.default vd1 with
      | .ok b => b.points.getLast? = some ⟨2100#16, 1110#16, 211#8⟩
      | _ => False) ∧
    decodeResult Config.default (altered vd1 0 0x55#8) = .err .headerMismatch ∧
    decodeResult Config.default (altered vd1 46 0x42#8) = .err .checksumMismatch ∧
    decodeResult Config.default (altered (altered vd1 0 0x00#8) 46 0xBC#8) = .err .headerMismatch := by
  refine ⟨?_, ?_⟩
  · have h : decodeResult Config.default vd1 = .ok (unpack .doc vd1) := by decide +kernel
    rw [h]
    decide +kernel
  · decide +kernel

/-! The sweep assembler. -/

/-- 29 points at 100, 200, …, 2900 and the last at 35981, as in R131's example. -/
def held29 : List Point :=
  (List.range 28).map (fun i => ⟨BitVec.ofNat 16 (100 * i), 1000#16, 50#8⟩) ++ [⟨35981#16, 504#16, 100#8⟩]

/-- R131's example: the point that reveals the wrap starts the next Sweep. -/
theorem test_addPoint_wrap :
    (nextOf (exec (.addPoint ⟨27#16, 505#16, 100#8⟩) (assembling cfg30 held29 35981#16))).map
      (fun t => (t.resOut, t.swCount, t.swLastRel, t.swOutCount, t.swBuf.read 0)) =
      some ([.emitted 1], 1, 27#16, 29, some (toEntry ⟨27#16, 505#16, 100#8⟩)) := by decide +kernel

/-- V-S11, V-S12: a wrap on an empty buffer with `N_TARGET = 1`; an illegal point. -/
theorem test_addPoint_edges :
    (nextOf (exec (.addPoint ⟨100#16, 2#16, 2#8⟩) (assembling cfg1 [] 300#16))).map
      (fun t => (t.resOut, t.emittedSweep)) = some ([.emitted 1], [⟨100#16, 2#16, 2#8⟩]) ∧
    (nextOf (exec (.addPoint ⟨36000#16, 1#16, 1#8⟩) State.reset)).map
      (fun t => (t.resOut, t.swLastValid)) = some ([.illegal], false) := by decide +kernel

/-- V-S4: `N_TARGET = 1`, every point its own Sweep. -/
theorem test_addBatch_all_emit :
    (nextOf (exec (.addBatch (ramp 100 100)) (State.resetWith cfg1))).map
      (fun t => (t.resOut, t.swCount, t.swLastRel, t.emittedSweep)) =
      some ([.emitted 12], 0, 1200#16, [⟨1200#16, 1011#16, 50#8⟩]) := by decide +kernel

/-- V-S10: the window's edge is exclusive. -/
theorem test_addBatch_window :
    (nextOf (exec (.addBatch (ramp 0 100)) (State.resetWith cfg50))).map
      (fun t => (t.resOut, t.swCount, t.swLastRel, t.swBuf.read 9)) =
      some ([.emitted 0], 10, 1100#16, some (toEntry ⟨900#16, 1009#16, 50#8⟩)) := by decide +kernel

/-- R136: the emitted points come out in order. -/
theorem test_takeSweep :
    (nextOf (exec .takeSweep (sweepPending [⟨0#16, 1000#16, 50#8⟩, ⟨100#16, 1001#16, 50#8⟩]))).map
      (fun t => (t.sweepReady, t.resOut)) =
      some (false, [.sweep [⟨0#16, 1000#16, 50#8⟩, ⟨100#16, 1001#16, 50#8⟩]]) := by decide +kernel

/-- V-S7: the detector forgets its reference, the stale `sw_last_rel` stays. -/
theorem test_sweepInvalidate :
    (nextOf (exec .sweepInvalidate (assembling cfg2 [⟨0#16, 0#16, 0#8⟩] 31100#16))).map
      (fun t => (t.swCount, t.swLastValid, t.swLastRel)) = some (0, false, 31100#16) := by decide

/-! The safety layer (V-A1 to V-A19; the trimmed angle 0 is `STEER_BIAS` = -150). -/

theorem test_setForward_clamps :
    (nextOf (exec (.setForward 9000#16) running)).map (fun t => (t.actOut, t.actMotor)) =
      some ([.setForwardDuty 3000], .forward 3000) ∧
    (nextOf (exec (.setForward (BitVec.ofInt 16 (-5))) running)).map State.actOut =
      some [.setForwardDuty 0] := ⟨rfl, rfl⟩
theorem test_setForward_estopped :
    (nextOf (exec (.setForward 9000#16) State.reset)).map (fun t => (t.actOut, t.actMotor)) =
      some ([.setNeutral], .neutral) := rfl
theorem test_setReverse :
    (nextOf (exec (.setReverse 2000#16) running)).map (fun t => (t.actOut, t.actMotor)) =
      some ([.setReverseDuty 2000], .reverse 2000) := rfl
theorem test_setReverse_estopped :
    (nextOf (exec (.setReverse 2000#16) State.reset)).map State.actOut = some [.setNeutral] := rfl
theorem test_setSteering :
    (nextOf (exec (.setSteering 5000#16) running)).map State.actOut =
      some [.write (Config.servoMap 2250)] ∧
    (nextOf (exec (.setSteering (BitVec.ofInt 16 (-32768))) running)).map State.actOut =
      some [.write (Config.servoMap (-2550))] := ⟨rfl, rfl⟩
theorem test_setSteering_frozen (q : ServoPos) :
    (nextOf (exec (.setSteering 1000#16) { State.reset with actServo := .pos q })).map
      (fun t => (t.actOut, t.actServo)) = some ([], .pos q) := rfl
theorem test_pause :
    (nextOf (exec .pause running)).map (fun t => (t.estopped, t.actOut, t.actMotor)) =
      some (true, [.write (Config.servoMap (-150)), .setNeutral], .neutral) := rfl
theorem test_unpause :
    (nextOf (exec .unpause State.reset)).map (fun t => (t.estopped, t.actOut, t.actMotor)) =
      some (false, [], .none) := rfl
theorem test_togglePause :
    (nextOf (exec .togglePause State.reset)).map (fun t => (t.estopped, t.actOut)) =
      some (false, [.write (Config.servoMap (-150)), .setNeutral]) := rfl
theorem test_estopEdge :
    (nextOf (exec .estopEdge { running with actMotor := .forward 3000 })).map
      (fun t => (t.estopped, t.actMotor, t.resOut)) = some (true, .neutral, []) := rfl


/-! For every obligation with hypotheses, inputs that meet all of them together. -/

/-- One operation of every constructor. -/
def oneOfEach : List Instr :=
  [.rxByte 0x00#8, .rxError, .estopEdge, .beginRx 0#32, .takeFrame, .decodeFrame vd1,
    .addBatch (ramp 0 100), .takeSweep, .sweepInvalidate, .addPoint ⟨0#16, 0#16, 0#8⟩,
    .setForward 0#16, .setReverse 0#16, .setSteering 0#16, .pause, .unpause, .togglePause]

/-- OneResultPerCommand, ElementsWrittenOnlyByTheirOperations, LatchStateMachine, GateCallsAreSafe,
BaudMirrorsAndReferenceReadByNothing: every operation has a next state, from reset, with a frame
pending, with a Sweep pending, and running. -/
theorem witness_exec_next :
    ∀ s ∈ [State.reset, pending, sweepPending [⟨0#16, 0#16, 0#8⟩], running], ∀ i ∈ oneOfEach,
      (nextOf (exec i s)).isSome = true := by decide +kernel

/-- BaudMirrorsAndReferenceReadByNothing: an operation that is no `BEGIN`, the largest legal angle. -/
theorem witness_unread : (∀ x, Instr.takeFrame ≠ .beginRx x) ∧ (35999#16).toNat < 36000 :=
  ⟨fun _ => by simp, by decide⟩

/-- PayloadLengthOfOpcode: each of its lengths with an opcode that has it. -/
theorem witness_payloadLength :
    (0x1A#8 ∈ [0x02#8, 0x05#8, 0x06#8, 0x18#8, 0x19#8, 0x1A#8] ∧ ([] : List Byte).length = 0) ∧
    (0x12#8 ∈ [0x10#8, 0x11#8, 0x12#8] ∧ (halfBytes 0#16).length = 2) ∧
    (wordBytes 0#32).length = 4 ∧ (pointBytes ⟨0#16, 0#16, 0#8⟩).length = 5 ∧
    vd1Bytes.length = 47 ∧ ve4Bytes.length = 60 := by decide

/-- IllegalCommandsIgnored: opcodes next to the legal ones; the first illegal angle, alone and last in
a batch. -/
theorem witness_illegal :
    (∀ op ∈ [0x00#8, 0x08#8, 0x0F#8, 0x13#8, 0x17#8, 0x1B#8, 0xFF#8],
      op ∉ [0x01#8, 0x02#8, 0x03#8, 0x04#8, 0x05#8, 0x06#8, 0x07#8, 0x10#8, 0x11#8, 0x12#8, 0x18#8,
        0x19#8, 0x1A#8] ∧
      (State.reset.setInbox [.cmd [op]]).inbox = [.cmd [op]]) ∧
    36000 ≤ (36000#16).toNat ∧
    (⟨36000#16, 0#16, 0#8⟩ : Point) ∈
      (⟨List.replicate 11 ⟨0#16, 0#16, 0#8⟩ ++ [⟨36000#16, 0#16, 0#8⟩], rfl⟩ : Batch).points := by
  decide

/-- WordsWithoutMeaningRefused: each of its three words waiting; the second is no operation. -/
theorem witness_refused :
    (State.reset.setInbox [.cmd []]).inbox = [.cmd []] ∧
    (State.reset.setInbox [.estop 0#1]).inbox = [.estop 0#1] ∧
    (State.reset.setInbox [.cmd [0x01#8, 0x00#8]]).inbox = [.cmd [0x01#8, 0x00#8]] ∧
    ¬ ∃ i, decode (.cmd [0x01#8, 0x00#8]) = .instr i :=
  ⟨rfl, rfl, rfl, fun ⟨i, h⟩ => by cases h⟩

/-- OperationsOfEachPort: a word of each port that is an operation. -/
theorem witness_ports :
    decode (.estop 1#1) = .instr .estopEdge ∧ decode (.cmd [0x1A#8]) = .instr .togglePause := by decide

/-- StepRunsDecodedOperation: an operation waiting, with another behind it; the step has a next
state. -/
theorem witness_step :
    (State.reset.setInbox [.cmd [0x18#8], .estop 1#1]).inbox = [.cmd [0x18#8], .estop 1#1] ∧
    decode (.cmd [0x18#8]) = .instr .pause ∧
    (nextOf (step (State.reset.setInbox [.cmd [0x18#8], .estop 1#1]))).isSome = true := by decide

/-- EmptyInboxChangesNothing. -/
theorem witness_emptyInbox : State.reset.inbox = [] := rfl

/-- ResultForms: the shortest and the longest Sweep with a count byte. -/
theorem witness_resultForms :
    ([] : List Point).length ≤ 255 ∧ (List.replicate 255 (⟨0#16, 0#16, 0#8⟩ : Point)).length ≤ 255 :=
  ⟨Nat.zero_le _, Nat.le_of_eq List.length_replicate⟩

/-- ConfigOutsideConstraintsNotBuilt: a record that is built. -/
theorem witness_config : (Config.build Config.defaultParams).isSome = true := by decide

/-- ProducerAndEstopCommute: both kinds of event. -/
theorem witness_producer :
    (∃ d, Instr.rxByte 0x00#8 = .rxByte d) ∧ Instr.rxError = .rxError := ⟨⟨_, rfl⟩, rfl⟩

/-- RxByteReceives, RxErrorRearms: each phase, and the cells 45 and 46 on the two sides of a
completion. -/
theorem witness_phases :
    State.reset.rxPhase = .idle ∧ ({ State.reset with rxPhase := .probe } : State).rxPhase = .probe ∧
    (receiving vd1Bytes 45).rxPhase = .frame ∧ (receiving vd1Bytes 45).rxIdx.val ≠ 46 ∧
    (receiving vd1Bytes 46).rxIdx.val = 46 ∧ (receiving vd1Bytes 46).rxPhase ≠ .idle := by decide

/-- TakeFrameReturnsPublishedFrame, SecondTakeFindsNothing: no frame, and a whole frame pending. -/
theorem witness_takeFrame :
    State.reset.frameReady = false ∧ pending.frameReady = true ∧
    (∀ a, a < 47 → Memory.read (pending.bank pending.rxWbank.other) a = some (vd1.bytes.getD a 0#8)) ∧
    (nextOf (exec .takeFrame pending)).isSome = true := by decide +kernel

/-- ReceivedFrameIsTaken, OlderFrameOverwritten, ErrorDiscardsPartialTransfer: an empty transfer; the
longest partial one. -/
theorem witness_emptyTransfer :
    (receiving [] 0).rxPhase = .frame ∧ (receiving [] 0).rxIdx = 0 ∧ (vd1Bytes.take 46).length < 47 := by
  decide

/-- DecodeChecksAndUnpacks: a frame for each of its three clauses, in both layouts, with fields that
give a start, an end and a span. -/
theorem witness_decode :
    (altered vd1 0 0x55#8).bytes.getD 0 0#8 ≠ State.reset.cfg.header ∧
    vd1.bytes.getD 0 0#8 = State.reset.cfg.header ∧
    checksum State.reset.cfg.checksum ((altered vd1 46 0x42#8).bytes.take 46) ≠
      (altered vd1 46 0x42#8).bytes.getD 46 0#8 ∧
    checksum State.reset.cfg.checksum (vd1.bytes.take 46) = vd1.bytes.getD 46 0#8 ∧
    State.reset.cfg.layout = .doc ∧ cfgLd06.layout = .ld06 ∧
    ((1100 : Nat) : Int) = (((2100 : Nat) : Int) - ((1000 : Nat) : Int)) % 36000 := by decide +kernel

/-- DecodedAnglesInOrder, AlteredFrameRejected: a frame that decodes, and other bytes for its first and
last. -/
theorem witness_decodes :
    (exec (.decodeFrame vd1) State.reset =
      .next { State.reset with resOut := State.reset.resOut ++ [.ok (unpack .doc vd1)] }) ∧
    (altered vd1 46 0x42#8).bytes = vd1.bytes.set 46 0x42#8 ∧ 0x42#8 ≠ vd1.bytes.getD 46 0#8 ∧
    (altered vd1 0 0x55#8).bytes = vd1.bytes.set 0 0x55#8 ∧ 0x55#8 ≠ vd1.bytes.getD 0 0#8 := by
  refine ⟨?_, rfl, by decide, rfl, by decide⟩
  have h : decodeResult State.reset.cfg vd1 = .ok (unpack .doc vd1) := by decide +kernel
  simp only [exec, execDecode, h]
  rfl

/-- CrcLaws: a round on a byte with bit 7 and on one without; two different byte strings of one
length. -/
theorem witness_crc :
    (∃ round : Byte → Byte,
      (∀ x, round x = if x.getLsbD 7 = true then (x <<< 1) ^^^ 0x4D#8 else x <<< 1) ∧
      round 0x80#8 = 0x4D#8 ∧ round 0x40#8 = 0x80#8) ∧
    ([0x01#8, 0x80#8] : List Byte).length = [0x54#8, 0x2C#8].length :=
  ⟨⟨fun x => if x.getLsbD 7 = true then (x <<< 1) ^^^ 0x4D#8 else x <<< 1, fun _ => rfl, rfl, rfl⟩, rfl⟩

/-- ZeroFrameRejected: the zero frame, a non-zero header, a checksum of R112's form. -/
theorem witness_zeroFrame :
    (⟨List.replicate 47 0#8, rfl⟩ : Frame).bytes = List.replicate 47 0#8 ∧
    State.reset.cfg.header ≠ 0#8 ∧
    State.reset.cfg.checksum = .crc8 ⟨0x4D#8, 0#8, 0#8, false, false⟩ := by decide

/-- The states of the two witnesses below: one point held, at relative angle 300, `N_TARGET` 2 or 30. -/
def oneHeld (c : Config) : State := assembling c [⟨300#16, 1#16, 1#8⟩] 300#16

theorem oneHeld_ready :
    (oneHeld cfg2).swCount < (oneHeld cfg2).cfg.nTarget ∧
    Memory.filled (oneHeld cfg2).swBuf (oneHeld cfg2).swCount ∧
    (oneHeld cfg30).swCount < (oneHeld cfg30).cfg.nTarget ∧
    Memory.filled (oneHeld cfg30).swBuf (oneHeld cfg30).swCount := by
  refine ⟨by decide, ?_, by decide, ?_⟩ <;>
    exact fun a ha => by
      have : a = 0 := by simpa [oneHeld, assembling] using ha
      subst this
      decide

/-- AddPointOnPointLists: an equal angle with the buffer then full, an earlier one that closes the
Sweep, and an equal one that is only kept. -/
theorem witness_addPoint :
    ((300 : Nat) : Int) = (((300#16).toNat : Int) - ((oneHeld cfg2).cfg.spanStart : Int)) % 36000 ∧
    ((oneHeld cfg2).held ++ [(⟨300#16, 2#16, 2#8⟩ : Point)]).length = (oneHeld cfg2).cfg.nTarget ∧
    ((299 : Nat) : Int) = (((299#16).toNat : Int) - ((oneHeld cfg2).cfg.spanStart : Int)) % 36000 ∧
    299 < (oneHeld cfg2).swLastRel.toNat ∧ (oneHeld cfg2).swLastValid = true ∧
    0 < (oneHeld cfg2).swCount ∧ [(⟨299#16, 2#16, 2#8⟩ : Point)].length ≠ (oneHeld cfg2).cfg.nTarget ∧
    ((oneHeld cfg30).held ++ [(⟨300#16, 2#16, 2#8⟩ : Point)]).length ≠ (oneHeld cfg30).cfg.nTarget := by
  decide +kernel

/-- AddBatchIsTwelveAddPoints: a legal batch and a buffer with room (`oneHeld_ready`). -/
theorem witness_addBatch : ∀ p ∈ (ramp 35999 0).points, p.angleCd.toNat < 36000 := by decide

/-- TakeSweepReturnsEmittedSweep: none ready; one ready that fills `SWOUT`. -/
theorem witness_takeSweep :
    State.reset.sweepReady = false ∧ (sweepPending (held29.take 24)).sweepReady = true ∧
    (sweepPending (held29.take 24)).swOutCount = (sweepPending (held29.take 24)).cfg.fifoDepth ∧
    ∀ a, a < 24 → ((sweepPending (held29.take 24)).swOut.read a).isSome = true := by decide +kernel

/-- A pass of two points over a window of `N_TARGET` = 2. -/
def passOf (a b : Half) : List Point := [⟨a, 1#16, 1#8⟩, ⟨b, 2#16, 2#8⟩]

/-- OnePassEmitsOneSweep: two passes, the second beginning with a wrap; an empty assembler that
remembers no point, and one that remembers the last of a turn. -/
theorem witness_onePass :
    (∀ p ∈ passOf 35000#16 35999#16 ++ passOf 0#16 0#16, p.angleCd.toNat < 36000) ∧
    (∀ ps ∈ [passOf 35000#16 35999#16, passOf 0#16 0#16],
      ps.Pairwise (fun p q => rel cfg2 p.angleCd ≤ rel cfg2 q.angleCd) ∧
      (ps.filter fun p => decide (rel cfg2 p.angleCd < cfg2.spanWidth)).length = cfg2.nTarget) ∧
    (State.resetWith cfg2).swCount = 0 ∧ (assembling cfg2 [] 35999#16).swCount = 0 ∧
    wraps ⟨0#16, 1#16, 1#8⟩ (assembling cfg2 [] 35999#16) = true := by
  decide

/-- SetForwardClampsOrNeutral, SetReverseClampsOrNeutral, SetSteeringClampsTrimsOrFrozen,
EstoppedRunStaysNeutral, EstopRaceEndsNeutral: both states of the latch, a run of commands that
completes. -/
theorem witness_latch :
    State.reset.estopped = true ∧ running.estopped = false ∧
    (∀ i ∈ [Instr.setForward 9000#16, .pause], i ≠ .unpause ∧ i ≠ .togglePause ∧ i ≠ .estopEdge) ∧
    (nextOf (execAll [.setForward 9000#16, .pause] State.reset)).isSome = true := by decide

/-- GateCallsAreSafe: a step that sets the latch and one that clears it. -/
theorem witness_latchMoves :
    (nextOf (exec .estopEdge running)).map State.estopped = some true ∧
    (nextOf (exec .estopEdge State.reset)).map State.estopped = some false := by decide

/-- ClampAndTrimArithmetic: bounds that meet, and values on both sides. -/
theorem witness_clamp : (0 : Int) ≤ 0 ∧ (-1 : Int) < 0 ∧ (0 : Int) < 1 := by decide

/-- A state of the invariant that is not the reset state: a frame pending, the 47th byte of the next
one to come, a point held, a Sweep ready, the motor running, a `PAUSE` waiting. -/
def busy : State :=
  { State.resetWith cfg2 with
    inbox := [.cmd [0x18#8]]
    rxPhase := .frame, rxIdx := 46, rxWbank := .bank1, rxBank0 := bankOf vd1Bytes
    rxBank1 := bankOf (vd2Bytes.take 46), frameReady := true
    swBuf := pointMem [⟨300#16, 1#16, 1#8⟩], swCount := 1, swLastRel := 300#16, swLastValid := true
    swOut := pointMem [⟨100#16, 1#16, 1#8⟩], swOutCount := 1, sweepReady := true
    estopped := false, actMotor := .forward 3000, actOut := [.setForwardDuty 3000] }

theorem inOrder_single (c : Config) (p : Point) (h : p.wellFormed = true)
    (hw : rel c p.angleCd < c.spanWidth) : InOrder c [p] :=
  ⟨by simpa using h, by simpa using hw, by simp⟩

theorem busy_held : busy.held = [⟨300#16, 1#16, 1#8⟩] := by decide +kernel
theorem busy_emitted : busy.emittedSweep = [⟨100#16, 1#16, 1#8⟩] := by decide +kernel

theorem busy_inv : BlockInv busy where
  idxZero := fun h => absurd rfl h
  partialFilled := show ∀ a, a < 46 → (Memory.read busy.rxBank1 a).isSome = true by decide +kernel
  publishedFilled := fun _ =>
    show ∀ a, a < 47 → (Memory.read busy.rxBank0 a).isSome = true by decide +kernel
  countLt := by decide
  bufFilled := show ∀ a, a < 1 → (busy.swBuf.read a).isSome = true by decide +kernel
  heldOrder := by rw [busy_held]; exact inOrder_single _ _ (by decide) (by decide)
  heldValid := fun _ => rfl
  heldLast := by rw [busy_held]; decide
  lastRelLt := by decide
  sweepCount := fun _ => by decide
  sweepFilled := fun _ => show ∀ a, a < 1 → (busy.swOut.read a).isSome = true by decide +kernel
  sweepOrder := fun _ => by rw [busy_emitted]; exact inOrder_single _ _ (by decide) (by decide)
  estopMotor := fun h => by cases h
  motorBound := show (0 : Int) ≤ 3000 ∧ (3000 : Int) ≤ busy.cfg.speedCap by decide
  servoBound := fun p h => by cases h
  callsOk := fun a h => by
    have : a = .setForwardDuty 3000 := by simpa [busy] using h
    subst this
    show (0 : Int) ≤ 3000 ∧ (3000 : Int) ≤ busy.cfg.speedCap
    decide
  banksWf := by decide +kernel
  sweepMemWf := by decide +kernel

/-- StepKeepsInvariant, EveryOperationCompletes, StepNeverFaults: `busy` is a state of the invariant,
and its step has a next state. -/
theorem witness_invariant : BlockInv busy ∧ ∃ t, step busy = .next t := ⟨busy_inv, _, rfl⟩

/-- StepNeverFaults: a state of the invariant with a word that is no operation waiting. -/
theorem witness_invariant_refused :
    BlockInv (busy.setInbox [.estop 0#1]) ∧ decode (.estop 0#1) = .noEdge :=
  ⟨{ busy_inv with }, by decide⟩

/-- NoOfferedPointLost: states of the invariant with a Sweep ready and with none, and a legal point. -/
theorem witness_noLoss :
    BlockInv busy ∧ busy.sweepReady = true ∧
    BlockInv (busy.setSweepReady false) ∧ (busy.setSweepReady false).sweepReady = false ∧
      ∀ p ∈ [(⟨35999#16, 0#16, 0#8⟩ : Point)], p.angleCd.toNat < 36000 :=
  ⟨busy_inv, rfl, { busy_inv with
      sweepCount := fun h => by cases h
      sweepFilled := fun h => by cases h
      sweepOrder := fun h => by cases h }, rfl, by decide⟩

/-- MissingCellsFault: a ready flag with nothing written; a full buffer and a clear detector; a wrap
that emits an unwritten cell; a count trigger on an unwritten cell; the first of these in a batch;
and a fault. -/
theorem witness_missingCells :
    ({ State.reset with frameReady := true } : State).frameReady = true ∧
    Memory.read (State.reset.bank State.reset.rxWbank.other) 46 = none ∧
    ({ State.reset with sweepReady := true, swOutCount := 1 } : State).swOut.read 0 = none ∧
    ({ State.reset with swCount := 24 } : State).swLastValid = false ∧
    rel State.reset.cfg 35999#16 < State.reset.cfg.spanWidth ∧
    State.reset.cfg.fifoDepth ≤ ({ State.reset with swCount := 24 } : State).swCount ∧
    ((true = true) ↔ (assembling cfg2 [] 300#16).swLastValid = true ∧
      rel cfg2 299#16 < ({ assembling cfg2 [] 300#16 with swCount := 1 } : State).swLastRel.toNat ∧
      0 < ({ assembling cfg2 [] 300#16 with swCount := 1 } : State).swCount) ∧
    ({ assembling cfg2 [] 300#16 with swCount := 1 } : State).swBuf.read 0 = none ∧
    ({ assembling cfg2 [] 300#16 with swCount := 1 } : State).swCount + 1 = cfg2.nTarget ∧
    (∀ p ∈ (ramp 0 0).points, p.angleCd.toNat < 36000) ∧
    execAll ((ramp 0 0).points.map .addPoint) { State.reset with swCount := 24 } =
      .fault (.noSuchCell .swbuf 24) :=
  ⟨rfl, rfl, rfl, rfl, by decide, by decide, by decide, rfl, rfl, by decide, rfl⟩

theorem next_of {o : Host.Outcome State Fault Refusal} {t : State} (h : nextOf o = some t) :
    o = .next t := by
  cases o <;> simp_all [nextOf]

/-- PollStopsAtError: no frame; a pending frame whose `DECODE` is an error. -/
theorem witness_poll :
    State.reset.frameReady = false ∧
    (exec .takeFrame { pending with rxBank0 := bankOf (altered vd1 46 0x42#8).bytes } =
      .next { pending with
        rxBank0 := bankOf (altered vd1 46 0x42#8).bytes, frameReady := false
        resOut := pending.resOut ++ [.frame (altered vd1 46 0x42#8)] }) ∧
    decodeResult pending.cfg (altered vd1 46 0x42#8) = .err .checksumMismatch :=
  ⟨rfl, next_of (by decide +kernel), by decide +kernel⟩

/-- V-D1 pending, `N_TARGET` 12: its batch fills the buffer. -/
def pending12 : State := { pending with cfg := ⟨params 12 0 36000, by decide⟩ }

/-- PollDecodesAssemblesAndTakes: a frame that decodes to a batch that emits no Sweep, and to one that
emits one; for its second clause `busy_inv`. -/
theorem witness_pollMain :
    ∀ s k, (s, k) ∈ [(pending, 0), (pending12, 1)] → ∃ u,
      exec .takeFrame s = .next { s with frameReady := false, resOut := s.resOut ++ [.frame vd1] } ∧
      exec (.decodeFrame vd1) { s with frameReady := false, resOut := s.resOut ++ [.frame vd1] } =
        .next { s with
          frameReady := false, resOut := s.resOut ++ [.frame vd1, .ok (unpack .doc vd1)] } ∧
      exec (.addBatch (unpack .doc vd1)) { s with
          frameReady := false, resOut := s.resOut ++ [.frame vd1, .ok (unpack .doc vd1)] } =
        .next u ∧
      u.resOut = s.resOut ++ [.frame vd1, .ok (unpack .doc vd1), .emitted k] := by
  intro s k h
  have key : ∀ x ∈ [(pending, 0), (pending12, 1)],
      nextOf (exec .takeFrame x.1) =
        some { x.1 with frameReady := false, resOut := x.1.resOut ++ [.frame vd1] } ∧
      nextOf (exec (.decodeFrame vd1)
          { x.1 with frameReady := false, resOut := x.1.resOut ++ [.frame vd1] }) =
        some { x.1 with
          frameReady := false, resOut := x.1.resOut ++ [.frame vd1, .ok (unpack .doc vd1)] } ∧
      (nextOf (exec (.addBatch (unpack .doc vd1)) { x.1 with
          frameReady := false, resOut := x.1.resOut ++ [.frame vd1, .ok (unpack .doc vd1)] })).map
          State.resOut =
        some (x.1.resOut ++ [.frame vd1, .ok (unpack .doc vd1), .emitted x.2]) := by decide +kernel
  obtain ⟨h1, h2, h3⟩ := key (s, k) h
  obtain ⟨u, hu, hr⟩ := Option.map_eq_some_iff.mp h3
  exact ⟨u, next_of h1, next_of h2, next_of hu, hr⟩

/-- PublishedBankChangesOnlyByCompletion: an `RX_BYTE` that completes a transfer, and one that does
not. -/
theorem witness_published :
    (nextOf (exec (.rxByte 0x00#8) (receiving vd1Bytes 46))).map State.frameReady = some true ∧
    (nextOf (exec (.rxByte 0x00#8) (receiving vd1Bytes 45))).map State.frameReady = some false := by
  decide +kernel

end Sys2Proof.Tests
end

