-- ==== Sys2Proof/Proofs/Scope.lean ====
section
/-! The configuration record of 00_scope.md R4: what the check of its constraints says, what building
a block gives, and the record of `State.reset`. -/

namespace Sys2Proof

/-- The check is the conjunction of the constraints of R4's table. -/
theorem Params.legal_iff (p : Params) :
    p.legal = true ↔
      p.spanStart ≤ 35999 ∧ 1 ≤ p.spanWidth ∧ p.spanWidth ≤ 36000 ∧ 1 ≤ p.nTarget ∧
      p.nTarget ≤ p.fifoDepth ∧ 0 ≤ p.speedCap ∧ p.speedCap ≤ 32767 ∧ 0 ≤ p.maxSteer ∧
      p.maxSteer ≤ 32767 ∧ -32768 ≤ p.steerBias ∧ p.steerBias ≤ 32767 ∧
      p.refPoint.angleCd.toNat < 36000 := by
  simp only [Params.legal, Bool.and_eq_true, decide_eq_true_eq, and_assoc]

/-- R25: the block is not built exactly when the check fails. -/
theorem Config.build_eq_none_iff (p : Params) : Config.build p = none ↔ ¬ p.legal = true := by
  simp [Config.build]

/-- A block that is built holds the record it was given. -/
theorem Config.toParams_of_build_eq_some {p : Params} {c : Config} (h : Config.build p = some c) :
    c.toParams = p := by
  obtain ⟨_, hc⟩ := Option.dite_none_right_eq_some.mp h
  cases hc
  rfl

/-- Settles O12: the disjunction is the negation, constraint by constraint, of the check. -/
theorem configOutsideConstraintsNotBuilt : Obligations.ConfigOutsideConstraintsNotBuilt := by
  intro p
  refine ⟨?_, fun _ => Config.toParams_of_build_eq_some⟩
  rw [Config.build_eq_none_iff, Params.legal_iff]
  simp only [not_and_or, not_le, not_lt]

/-- Settles O55: both sides are the same record, field by field, by unfolding the model's
definitions of the default record. -/
theorem resetUsesDefaultRecord : Obligations.ResetUsesDefaultRecord :=
  ⟨rfl, rfl⟩

end Sys2Proof
end

/-! The state of 10_state.md: what each operation makes of it, which elements an operation writes and
reads (R10), and the invariant (R29). -/

namespace Sys2Proof.Machine

/-! What one operation can make of a state (30_encoding.md R70). -/

/-- `Effect s i t`: from `s` the operation `i` goes to `t`; one case per branch of the operations'
meanings (`exec_eq_next_iff`). -/
inductive Effect (s : State) : Instr → State → Prop where
  | byteLost (d : Byte) : s.rxPhase = .idle → Effect s (.rxByte d) s
  | byteProbed (d : Byte) : s.rxPhase = .probe → Effect s (.rxByte d) (s.armRx .frame 0)
  | byteStored (d : Byte) : s.rxPhase = .frame → (h : s.rxIdx.val ≠ 46) →
      Effect s (.rxByte d) ((storeByte d s).armRx .frame ⟨s.rxIdx.val + 1, by omega⟩)
  | frameCompleted (d : Byte) : s.rxPhase = .frame → s.rxIdx.val = 46 →
      Effect s (.rxByte d) ((publish (storeByte d s)).armRx .frame 0)
  | errorIgnored : s.rxPhase = .idle → Effect s .rxError s
  | errorRearmed : s.rxPhase ≠ .idle → Effect s .rxError (s.armRx .frame 0)
  | edge : Effect s .estopEdge (toggleLatch s)
  | begun (v : BitVec 32) : Effect s (.beginRx v)
      ((((s.setBaud v).armRx .probe 0).setFrameReady false).pushRes .done)
  | frameTaken (f : Frame) : s.frameReady = true → publishedFrame s = .ok f →
      Effect s .takeFrame ((s.setFrameReady false).pushRes (.frame f))
  | noFrame : s.frameReady = false → Effect s .takeFrame (s.pushRes .noFrame)
  | decoded (f : Frame) : Effect s (.decodeFrame f) (s.pushRes (decodeResult s.cfg f))
  | batchOffered (b : Batch) (t : State) (k : Nat) : (∀ p ∈ b.points, p.wellFormed = true) →
      offerPoints b.points s = .ok (t, k) → Effect s (.addBatch b) (t.pushRes (.emitted k))
  | batchIllegal (b : Batch) : (∃ p ∈ b.points, p.wellFormed = false) →
      Effect s (.addBatch b) (s.pushRes .illegal)
  | sweepTaken (es : List Entry) : s.sweepReady = true →
      readCells .swout s.cfg.fifoDepth s.swOut 0 s.swOutCount = .ok es →
      Effect s .takeSweep ((s.setSweepReady false).pushRes (.sweep (es.map ofEntry)))
  | noSweep : s.sweepReady = false → Effect s .takeSweep (s.pushRes .noSweep)
  | sweepInvalidated : Effect s .sweepInvalidate (s.clearSweep.pushRes .done)
  | pointOffered (p : Point) (t : State) (k : Nat) : p.wellFormed = true →
      offerPoint p s = .ok (t, k) → Effect s (.addPoint p) (t.pushRes (.emitted k))
  | pointIllegal (p : Point) : p.wellFormed = false → Effect s (.addPoint p) (s.pushRes .illegal)
  | forwardStopped (v : Half) : s.estopped = true →
      Effect s (.setForward v) ((motorNeutral s).pushRes .done)
  | forwardDriven (v : Half) : s.estopped = false → Effect s (.setForward v)
      ((s.driveMotor (.setForwardDuty (duty s.cfg v)) (.forward (duty s.cfg v))).pushRes .done)
  | reverseStopped (v : Half) : s.estopped = true →
      Effect s (.setReverse v) ((motorNeutral s).pushRes .done)
  | reverseDriven (v : Half) : s.estopped = false → Effect s (.setReverse v)
      ((s.driveMotor (.setReverseDuty (duty s.cfg v)) (.reverse (duty s.cfg v))).pushRes .done)
  | steeringFrozen (a : Half) : s.estopped = true → Effect s (.setSteering a) (s.pushRes .done)
  | steered (a : Half) : s.estopped = false →
      Effect s (.setSteering a) ((s.driveServo (steerPos s.cfg a)).pushRes .done)
  | paused : Effect s .pause (((neutralise s).setEstopped true).pushRes .done)
  | unpaused : Effect s .unpause ((s.setEstopped false).pushRes .done)
  | toggled : Effect s .togglePause ((toggleLatch s).pushRes .done)

/-- The two answers of an `ADD_POINT` or `ADD_BATCH` whose points are legal. -/
theorem reportEmitted_eq_next_iff {r : Except Fault (State × Nat)} {t : State} :
    reportEmitted r = .next t ↔ ∃ u k, r = .ok (u, k) ∧ t = u.pushRes (.emitted k) := by
  cases r with
  | error e => simp [reportEmitted]
  | ok x =>
    obtain ⟨u, k⟩ := x
    simp [reportEmitted, eq_comm]

theorem execRxByte_effect {d : Byte} {s t : State} (h : execRxByte d s = .next t) :
    Effect s (.rxByte d) t := by
  unfold execRxByte at h
  split at h <;> cases h
  · exact .byteLost d ‹_›
  · exact .byteProbed d ‹_›
  · unfold frameByteReceived
    split
    · exact .frameCompleted d ‹_› ‹_›
    · exact .byteStored d ‹_› ‹_›

theorem execRxError_effect {s t : State} (h : execRxError s = .next t) :
    Effect s .rxError t := by
  unfold execRxError at h
  split at h <;> cases h
  · exact .errorIgnored ‹_›
  · exact .errorRearmed (by simp [*])
  · exact .errorRearmed (by simp [*])

theorem execTakeFrame_effect {s t : State} (h : execTakeFrame s = .next t) :
    Effect s .takeFrame t := by
  unfold execTakeFrame at h
  split at h
  · split at h <;> cases h
    exact .frameTaken _ ‹_› ‹_›
  · cases h
    exact .noFrame (Bool.eq_false_of_not_eq_true ‹_›)

theorem execTakeSweep_effect {s t : State} (h : execTakeSweep s = .next t) :
    Effect s .takeSweep t := by
  unfold execTakeSweep at h
  split at h
  · split at h <;> cases h
    exact .sweepTaken _ ‹_› ‹_›
  · cases h
    exact .noSweep (Bool.eq_false_of_not_eq_true ‹_›)

theorem execAddPoint_effect {p : Point} {s t : State} (h : execAddPoint p s = .next t) :
    Effect s (.addPoint p) t := by
  unfold execAddPoint at h
  split at h
  · obtain ⟨u, k, ho, rfl⟩ := reportEmitted_eq_next_iff.mp h
    exact .pointOffered p u k ‹_› ho
  · cases h
    exact .pointIllegal p (Bool.eq_false_of_not_eq_true ‹_›)

theorem execAddBatch_effect {b : Batch} {s t : State} (h : execAddBatch b s = .next t) :
    Effect s (.addBatch b) t := by
  unfold execAddBatch at h
  split at h <;> rename_i hl
  · obtain ⟨u, k, ho, rfl⟩ := reportEmitted_eq_next_iff.mp h
    exact .batchOffered b u k (by simpa [legalPoint_eq] using hl) ho
  · cases h
    exact .batchIllegal b (by simpa [legalPoint_eq] using hl)

theorem execSetForward_effect {v : Half} {s t : State} (h : execSetForward v s = .next t) :
    Effect s (.setForward v) t := by
  unfold execSetForward at h
  split at h <;> cases h
  · exact .forwardStopped v ‹_›
  · exact .forwardDriven v (Bool.eq_false_of_not_eq_true ‹_›)

theorem execSetReverse_effect {v : Half} {s t : State} (h : execSetReverse v s = .next t) :
    Effect s (.setReverse v) t := by
  unfold execSetReverse at h
  split at h <;> cases h
  · exact .reverseStopped v ‹_›
  · exact .reverseDriven v (Bool.eq_false_of_not_eq_true ‹_›)

theorem execSetSteering_effect {a : Half} {s t : State} (h : execSetSteering a s = .next t) :
    Effect s (.setSteering a) t := by
  unfold execSetSteering at h
  split at h <;> cases h
  · exact .steeringFrozen a ‹_›
  · exact .steered a (Bool.eq_false_of_not_eq_true ‹_›)

/-- Everything an operation with a next state can do, whatever the state. -/
theorem exec_effect {i : Instr} {s t : State} (h : exec i s = .next t) : Effect s i t := by
  cases i with
  | rxByte d => exact execRxByte_effect h
  | rxError => exact execRxError_effect h
  | estopEdge => cases h; exact .edge
  | beginRx v => cases h; exact .begun v
  | takeFrame => exact execTakeFrame_effect h
  | decodeFrame f => cases h; exact .decoded f
  | addBatch b => exact execAddBatch_effect h
  | takeSweep => exact execTakeSweep_effect h
  | sweepInvalidate => cases h; exact .sweepInvalidated
  | addPoint p => exact execAddPoint_effect h
  | setForward v => exact execSetForward_effect h
  | setReverse v => exact execSetReverse_effect h
  | setSteering a => exact execSetSteering_effect h
  | pause => cases h; exact .paused
  | unpause => cases h; exact .unpaused
  | togglePause => cases h; exact .toggled

/-- And everything it lists, the operation does. -/
theorem Effect.exec_eq {i : Instr} {s t : State} (h : Effect s i t) : exec i s = .next t := by
  cases h with
  | byteLost | byteProbed | errorIgnored => simp [exec, execRxByte, execRxError, *]
  | byteStored | frameCompleted => simp [exec, execRxByte, frameByteReceived, *]
  | errorRearmed hp => cases hs : s.rxPhase with
    | idle => exact absurd hs hp
    | probe | frame => simp [exec, execRxError, hs]
  | frameTaken | noFrame => simp [exec, execTakeFrame, *]
  | sweepTaken | noSweep => simp [exec, execTakeSweep, *]
  | pointOffered p t k hp ho => simp [exec, execAddPoint, legalPoint_eq, reportEmitted, *]
  | pointIllegal p hp => simp [exec, execAddPoint, legalPoint_eq, illegalCommand, *]
  | batchOffered b t k hb ho =>
    have hl : b.points.all legalPoint = true := List.all_eq_true.mpr hb
    simp [exec, execAddBatch, reportEmitted, hl, ho]
  | batchIllegal b hb =>
    obtain ⟨p, hp, hw⟩ := hb
    have hl : ¬ b.points.all legalPoint = true := fun h => by
      simpa [legalPoint_eq, hw] using List.all_eq_true.mp h p hp
    simp only [exec, execAddBatch, illegalCommand, hl, Bool.false_eq_true, if_false]
  | forwardStopped | forwardDriven => simp [exec, execSetForward, *]
  | reverseStopped | reverseDriven => simp [exec, execSetReverse, *]
  | steeringFrozen | steered => simp [exec, execSetSteering, *]
  | edge | begun | decoded | sweepInvalidated | paused | unpaused | toggled => rfl

/-- The sixteen operations, said once. -/
theorem exec_eq_next_iff {i : Instr} {s t : State} : exec i s = .next t ↔ Effect s i t :=
  ⟨exec_effect, Effect.exec_eq⟩

variable {s t : State}

/-! R10's table, read by operation. -/

/-- `s` with the elements that R10's table and the ports of R74 and R75 let `i` write taken from
`t`. -/
def State.written (i : Instr) (s t : State) : State :=
  match i with
  | .rxByte _ => { s with
      rxPhase := t.rxPhase, rxIdx := t.rxIdx, rxWbank := t.rxWbank, rxBank0 := t.rxBank0
      rxBank1 := t.rxBank1, frameReady := t.frameReady }
  | .rxError => { s with rxPhase := t.rxPhase, rxIdx := t.rxIdx }
  | .beginRx _ => { s with
      rxPhase := t.rxPhase, rxIdx := t.rxIdx, frameReady := t.frameReady, rxBaud := t.rxBaud
      resOut := t.resOut }
  | .takeFrame => { s with frameReady := t.frameReady, resOut := t.resOut }
  | .decodeFrame _ => { s with resOut := t.resOut }
  | .addBatch _ | .addPoint _ => { s with
      swBuf := t.swBuf, swCount := t.swCount, swLastRel := t.swLastRel
      swLastValid := t.swLastValid, swOut := t.swOut, swOutCount := t.swOutCount
      sweepReady := t.sweepReady, resOut := t.resOut }
  | .takeSweep => { s with sweepReady := t.sweepReady, resOut := t.resOut }
  | .sweepInvalidate => { s with
      swCount := t.swCount, swLastValid := t.swLastValid, resOut := t.resOut }
  | .setForward _ | .setReverse _ => { s with
      actMotor := t.actMotor, resOut := t.resOut, actOut := t.actOut }
  | .setSteering _ => { s with actServo := t.actServo, resOut := t.resOut, actOut := t.actOut }
  | .unpause => { s with estopped := t.estopped, resOut := t.resOut }
  | .pause | .togglePause | .estopEdge => { s with
      estopped := t.estopped, actMotor := t.actMotor, actServo := t.actServo
      resOut := t.resOut, actOut := t.actOut }

/-- Writing a bank leaves every other element alone. -/
theorem setBank_eq (s : State) (b : Bank) (m : List Host.Cell) : s.setBank b m =
    { s with rxBank0 := (s.setBank b m).rxBank0, rxBank1 := (s.setBank b m).rxBank1 } := by
  cases b <;> rfl

/-- Storing a byte writes the two banks only (R92). -/
theorem storeByte_eq (d : Byte) (s : State) : storeByte d s =
    { s with rxBank0 := (storeByte d s).rxBank0, rxBank1 := (storeByte d s).rxBank1 } :=
  setBank_eq s s.rxWbank _

/-- What the sweep operations leave alone, seen past the result they put out. -/
theorem SweepFrame.pushRes_eq (h : SweepFrame s t) (r : Result) : t.pushRes r =
    { s with
      swBuf := t.swBuf, swCount := t.swCount, swLastRel := t.swLastRel
      swLastValid := t.swLastValid, swOut := t.swOut, swOutCount := t.swOutCount
      sweepReady := t.sweepReady, resOut := (t.pushRes r).resOut } := by
  unfold SweepFrame at h
  rw [h]
  rfl

/-- Every operation writes only what R10's table lists for it. -/
theorem Effect.eq_written {i : Instr} (h : Effect s i t) : t = State.written i s t := by
  cases h with
  | byteStored d | frameCompleted d =>
    rw [storeByte_eq]
    rfl
  | pointOffered p u k _ ho => exact (offerPoint_sweepFrame ho).pushRes_eq _
  | batchOffered b u k _ ho => exact (offerPoints_sweepFrame ho).pushRes_eq _
  | _ => rfl

/-- Settles O13: an element outside the row of `i` has in `t` the value it has in `s`. -/
theorem elementsWrittenOnlyByTheirOperations :
    Obligations.ElementsWrittenOnlyByTheirOperations := by
  intro i s t h
  rw [(exec_effect h).eq_written]
  cases i <;> simp [State.written]

/-- Settles O54: only `RX_BYTE` writes `rx_wbank` or a bank (R10), and of its cases only the completed
transfer publishes another bank. -/
theorem publishedBankChangesOnlyByCompletion :
    Obligations.PublishedBankChangesOnlyByCompletion := by
  intro i s t h
  by_cases hi : ∃ d, i = .rxByte d
  · obtain ⟨d, rfl⟩ := hi
    cases exec_effect h with
    | byteLost => exact .inl rfl
    | byteProbed => exact .inl rfl
    | byteStored _ hp hn =>
      left
      simp [State.published, storeByte_other]
    | frameCompleted _ hp hn =>
      exact .inr ⟨⟨d, rfl⟩, hp, hn, by simp, by simp⟩
  · obtain ⟨-, -, -, hbank, -⟩ := elementsWrittenOnlyByTheirOperations i s t h
    have hsame := not_imp_not.mpr hbank hi
    simp only [not_or, not_not] at hsame
    obtain ⟨hw, h0, h1⟩ := hsame
    left
    simp only [State.published, State.bank, hw, h0, h1]

/-! The elements that nothing reads (R16, R23, R24, R139). -/

/-- A value for one of the elements that no operation reads. -/
inductive Unread where
  | baud (v : BitVec 32)
  | motor (m : Motor)
  | servo (p : Servo)
  | ref (q : Point) (h : q.angleCd.toNat < 36000)

/-- Gives the element that value. -/
def Unread.put : Unread → State → State
  | .baud v, s => { s with rxBaud := v }
  | .motor m, s => { s with actMotor := m }
  | .servo p, s => { s with actServo := p }
  | .ref q h, s => { s with cfg := s.cfg.withRef q h }

/-- The operation writes the element (R10's table): in every state, but for `SET_STEERING`, which is
frozen while estopped (R153). -/
def Unread.writtenBy (u : Unread) (s : State) (i : Instr) : Bool :=
  match u with
  | .baud _ =>
    match i with
    | .beginRx _ => true
    | _ => false
  | .motor _ =>
    match i with
    | .setForward _ | .setReverse _ | .pause | .togglePause | .estopEdge => true
    | _ => false
  | .servo _ =>
    match i with
    | .setSteering _ => !s.estopped
    | .pause | .togglePause | .estopEdge => true
    | _ => false
  | .ref _ _ => false

/-- An outcome of the sweep operations with its state changed by `put`. -/
def Unread.putSweep (u : Unread) : Except Fault (State × Nat) → Except Fault (State × Nat) :=
  Except.map (Prod.map u.put id)

section Put

variable (u : Unread)

/-! What the operations read is the same with any value there. -/

@[simp] theorem put_rxPhase (s : State) : (u.put s).rxPhase = s.rxPhase := by cases u <;> rfl
@[simp] theorem put_rxIdx (s : State) : (u.put s).rxIdx = s.rxIdx := by cases u <;> rfl
@[simp] theorem put_rxWbank (s : State) : (u.put s).rxWbank = s.rxWbank := by cases u <;> rfl
@[simp] theorem put_frameReady (s : State) : (u.put s).frameReady = s.frameReady := by cases u <;> rfl
@[simp] theorem put_swBuf (s : State) : (u.put s).swBuf = s.swBuf := by cases u <;> rfl
@[simp] theorem put_swCount (s : State) : (u.put s).swCount = s.swCount := by cases u <;> rfl
@[simp] theorem put_swOut (s : State) : (u.put s).swOut = s.swOut := by cases u <;> rfl
@[simp] theorem put_swOutCount (s : State) : (u.put s).swOutCount = s.swOutCount := by cases u <;> rfl
@[simp] theorem put_sweepReady (s : State) : (u.put s).sweepReady = s.sweepReady := by cases u <;> rfl
@[simp] theorem put_estopped (s : State) : (u.put s).estopped = s.estopped := by cases u <;> rfl
@[simp] theorem put_bank (s : State) (b : Bank) : (u.put s).bank b = s.bank b := by
  cases u <;> rfl
@[simp] theorem put_fifoDepth (s : State) : (u.put s).cfg.fifoDepth = s.cfg.fifoDepth := by
  cases u <;> rfl
@[simp] theorem put_nTarget (s : State) : (u.put s).cfg.nTarget = s.cfg.nTarget := by
  cases u <;> rfl
@[simp] theorem inWindow_put (s : State) (p : Point) :
    inWindow (u.put s).cfg p = inWindow s.cfg p := by cases u <;> rfl
@[simp] theorem closesSweep_put (s : State) (p : Point) :
    closesSweep p (u.put s) = closesSweep p s := by cases u <;> rfl
@[simp] theorem publishedFrame_put (s : State) : publishedFrame (u.put s) = publishedFrame s := by
  cases u <;> rfl

/-! The shared operations and the meanings do the same with any value there. -/

theorem emit_put (s : State) : emit (u.put s) = (emit s).map u.put := by
  simp only [emit, put_fifoDepth, put_swBuf, put_swOut, put_swCount]
  cases readCells .swbuf s.cfg.fifoDepth s.swBuf 0 s.swCount with
  | error e => rfl
  | ok es =>
    dsimp only
    cases writeCells .swout s.cfg.fifoDepth s.swOut 0 es with
    | error e => rfl
    | ok m => cases u <;> rfl

theorem closeOnWrap_put (p : Point) (s : State) :
    closeOnWrap p (u.put s) = u.putSweep (closeOnWrap p s) := by
  rw [closeOnWrap, closeOnWrap, closesSweep_put, emit_put]
  split
  · cases emit s <;> rfl
  · rfl

theorem emitIfFull_put (s : State) : emitIfFull (u.put s) = u.putSweep (emitIfFull s) := by
  simp only [emitIfFull, put_swCount, put_nTarget, emit_put]
  split
  · cases emit s <;> rfl
  · rfl

theorem appendPoint_put (p : Point) (s : State) :
    appendPoint p (u.put s) = u.putSweep (appendPoint p s) := by
  have hset (m : Memory 40) (n : Nat) : (u.put s).setBuffer m n = u.put (s.setBuffer m n) := by
    cases u <;> rfl
  simp only [appendPoint, inWindow_put, put_fifoDepth, put_swBuf, put_swCount]
  split
  · cases writeCells .swbuf s.cfg.fifoDepth s.swBuf s.swCount [toEntry p] with
    | error e => rfl
    | ok m => simp only [hset, emitIfFull_put]
  · rfl

theorem offerPoint_put (p : Point) (s : State) :
    offerPoint p (u.put s) = u.putSweep (offerPoint p s) := by
  have htrack (t : State) : (u.put t).track (rel (u.put s).cfg p.angleCd) =
      u.put (t.track (rel s.cfg p.angleCd)) := by cases u <;> rfl
  rw [offerPoint, offerPoint, closeOnWrap_put]
  cases closeOnWrap p s with
  | error e => rfl
  | ok x =>
    simp only [Unread.putSweep, Except.map, Prod.map]
    rw [htrack, appendPoint_put]
    cases appendPoint p (x.1.track (rel s.cfg p.angleCd)) <;> rfl

theorem offerPoints_put (ps : List Point) (s : State) :
    offerPoints ps (u.put s) = u.putSweep (offerPoints ps s) := by
  induction ps generalizing s with
  | nil => rfl
  | cons p ps ih =>
    rw [offerPoints, offerPoints, offerPoint_put]
    cases offerPoint p s with
    | error e => rfl
    | ok x =>
      simp only [Unread.putSweep, Except.map, Prod.map, ih]
      cases offerPoints ps x.1 <;> rfl

theorem reportEmitted_putSweep (r : Except Fault (State × Nat)) :
    reportEmitted (u.putSweep r) = mapNext u.put (reportEmitted r) := by
  cases r with
  | error e => rfl
  | ok x => cases u <;> rfl

theorem setBank_put (s : State) (b : Bank) (m : List Host.Cell) :
    (u.put s).setBank b m = u.put (s.setBank b m) := by
  cases b <;> cases u <;> rfl

theorem storeByte_put (d : Byte) (s : State) : storeByte d (u.put s) = u.put (storeByte d s) := by
  simp only [storeByte, put_rxWbank, put_bank, put_rxIdx, setBank_put]

theorem execRxByte_put (d : Byte) (s : State) :
    execRxByte d (u.put s) = mapNext u.put (execRxByte d s) := by
  simp only [execRxByte, put_rxPhase]
  cases s.rxPhase with
  | idle => rfl
  | probe => cases u <;> rfl
  | frame =>
    simp only [frameByteReceived, put_rxIdx, storeByte_put]
    split <;> cases u <;> rfl

theorem execRxError_put (s : State) : execRxError (u.put s) = mapNext u.put (execRxError s) := by
  simp only [execRxError, put_rxPhase]
  cases s.rxPhase with
  | idle => rfl
  | probe => cases u <;> rfl
  | frame => cases u <;> rfl

theorem execTakeFrame_put (s : State) :
    execTakeFrame (u.put s) = mapNext u.put (execTakeFrame s) := by
  simp only [execTakeFrame, put_frameReady, publishedFrame_put]
  split
  · cases publishedFrame s with
    | error e => rfl
    | ok f => cases u <;> rfl
  · cases u <;> rfl

theorem execTakeSweep_put (s : State) :
    execTakeSweep (u.put s) = mapNext u.put (execTakeSweep s) := by
  simp only [execTakeSweep, put_sweepReady, put_fifoDepth, put_swOut, put_swOutCount]
  split
  · cases readCells .swout s.cfg.fifoDepth s.swOut 0 s.swOutCount with
    | error e => rfl
    | ok es => cases u <;> rfl
  · cases u <;> rfl

theorem execAddPoint_put (p : Point) (s : State) :
    execAddPoint p (u.put s) = mapNext u.put (execAddPoint p s) := by
  rw [execAddPoint, execAddPoint, offerPoint_put, reportEmitted_putSweep]
  split
  · rfl
  · cases u <;> rfl

theorem execAddBatch_put (b : Batch) (s : State) :
    execAddBatch b (u.put s) = mapNext u.put (execAddBatch b s) := by
  rw [execAddBatch, execAddBatch, offerPoints_put, reportEmitted_putSweep]
  split
  · rfl
  · cases u <;> rfl

/-- An operation that does not write the element does the same whatever its value, and keeps it. -/
theorem exec_put_of_not_written {i : Instr} (hu : u.writtenBy s i = false) :
    exec i (u.put s) = mapNext u.put (exec i s) := by
  cases i with
  | rxByte d => exact execRxByte_put u d s
  | rxError => exact execRxError_put u s
  | takeFrame => exact execTakeFrame_put u s
  | takeSweep => exact execTakeSweep_put u s
  | addPoint p => exact execAddPoint_put u p s
  | addBatch b => exact execAddBatch_put u b s
  | decodeFrame | sweepInvalidate | unpause => cases u <;> rfl
  | beginRx v => cases u with
    | baud => cases hu
    | _ => rfl
  | setForward v =>
    simp only [exec, execSetForward, put_estopped, apply_ite (mapNext u.put)]
    cases u with
    | motor => cases hu
    | _ => rfl
  | setReverse v =>
    simp only [exec, execSetReverse, put_estopped, apply_ite (mapNext u.put)]
    cases u with
    | motor => cases hu
    | _ => rfl
  | setSteering a =>
    simp only [exec, execSetSteering, put_estopped, apply_ite (mapNext u.put)]
    cases u with
    | servo p =>
      have hn : (!s.estopped) = false := hu
      have he : s.estopped = true := by simpa using hn
      rw [if_pos he, if_pos he]
      rfl
    | _ => rfl
  | pause | togglePause | estopEdge => cases u with
    | motor | servo => cases hu
    | _ => rfl

/-- An operation that writes the element does not read it. -/
theorem exec_put_of_written {i : Instr} (hu : u.writtenBy s i = true) :
    exec i (u.put s) = exec i s := by
  cases u with
  | baud v => cases i with
    | beginRx => rfl
    | _ => cases hu
  | motor m => cases i with
    | setForward | setReverse | pause | togglePause | estopEdge => rfl
    | _ => cases hu
  | servo p => cases i with
    | setSteering a =>
      have hn : (!s.estopped) = true := hu
      have he : s.estopped = false := by simpa using hn
      simp [exec, execSetSteering, Unread.put, he, State.driveServo]
    | pause | togglePause | estopEdge => rfl
    | _ => cases hu
  | ref => cases hu

/-- An operation with a next state has the same one whatever the element's value was, or has it with
that value kept. -/
theorem exec_put_cases {i : Instr} (h : exec i s = .next t) :
    exec i (u.put s) = .next t ∨
      (u.writtenBy s i = false ∧ exec i (u.put s) = .next (u.put t)) := by
  cases hu : u.writtenBy s i with
  | true => exact .inl ((exec_put_of_written u hu).trans h)
  | false => exact .inr ⟨rfl, by rw [exec_put_of_not_written u hu, h]; rfl⟩

/-- An operation that does not write the element keeps it: its own value is one of those the outcome
does not depend on. -/
theorem put_eq_self_of_not_written {i : Instr} (hself : u.put s = s) (h : exec i s = .next t)
    (hu : u.writtenBy s i = false) : u.put t = t := by
  have hown := exec_put_of_not_written u hu
  rw [hself, h] at hown
  exact (Host.Outcome.next.inj (show Host.Outcome.next t = .next (u.put t) from hown)).symm

end Put

/-- Settles O14: each clause is the case of its element; the configuration record that the last clause
puts back is the one no operation writes (R25). -/
theorem baudMirrorsAndReferenceReadByNothing :
    Obligations.BaudMirrorsAndReferenceReadByNothing := by
  refine ⟨fun i s v hi => ?_, fun x s v => ?_, fun i s t m h => ?_, fun i s t m h => ?_,
    fun i s q hq => ?_⟩
  · have hu : (Unread.baud v).writtenBy s i = false := by
      cases i with
      | beginRx x => exact absurd rfl (hi x)
      | _ => rfl
    exact exec_put_of_not_written (.baud v) hu
  · exact exec_put_of_written (.baud v) rfl
  · rcases exec_put_cases (.motor m) h with hw | ⟨hu, hk⟩
    · exact .inl hw
    · have hown := put_eq_self_of_not_written (.motor s.actMotor) rfl h hu
      exact .inr ⟨(congrArg State.actMotor hown).symm, hk⟩
  · rcases exec_put_cases (.servo m) h with hw | ⟨hu, hk⟩
    · exact .inl hw
    · have hown := put_eq_self_of_not_written (.servo s.actServo) rfl h hu
      exact .inr ⟨(congrArg State.actServo hown).symm, hk⟩
  · refine (exec_put_of_not_written (.ref q hq) rfl).trans ?_
    cases h : exec i s with
    | next t =>
      have hcfg : t.cfg = s.cfg := (elementsWrittenOnlyByTheirOperations i s t h).1
      simp only [mapNext, Unread.put, hcfg]
    | fault e => rfl
    | refused r => rfl

/-! The invariant (R29): the reset state. -/

theorem inOrder_nil (c : Config) : InOrder c [] :=
  ⟨by simp, by simp, List.Pairwise.nil⟩

theorem resetWith_blockInv (c : Config) : BlockInv (State.resetWith c) where
  idxZero _ := rfl
  partialFilled := Memory.filled_zero _
  publishedFilled h := nomatch h
  countLt := by
    obtain ⟨-, -, -, hn, -⟩ := config_bounds c
    exact hn
  bufFilled := Memory.filled_zero _
  heldOrder := inOrder_nil c
  heldValid h := absurd h (Nat.lt_irrefl 0)
  heldLast p hp := nomatch hp
  lastRelLt := show (0#16).toNat < 36000 by decide
  sweepCount h := nomatch h
  sweepFilled h := nomatch h
  sweepOrder h := nomatch h
  estopMotor _ := .inl rfl
  motorBound := trivial
  servoBound p hp := nomatch hp
  callsOk a ha := nomatch ha
  banksWf := ⟨rfl, rfl⟩
  sweepMemWf := ⟨rfl, rfl⟩

/-! The ports and the ingestion buffer. -/

theorem BlockInv.pushRes (hs : BlockInv s) (r : Result) : BlockInv (s.pushRes r) := { hs with }

theorem BlockInv.setInbox (hs : BlockInv s) (ws : List PortWord) : BlockInv (s.setInbox ws) :=
  { hs with }

theorem BlockInv.setBaud (hs : BlockInv s) (v : BitVec 32) : BlockInv (s.setBaud v) := { hs with }

/-- Arming an empty transfer (R90) discards the partial one. -/
theorem BlockInv.armRx_zero (hs : BlockInv s) (ph : RxPhase) : BlockInv (s.armRx ph 0) :=
  { hs with
    idxZero := fun _ => rfl
    partialFilled := Memory.filled_zero _ }

theorem BlockInv.clearFrameReady (hs : BlockInv s) : BlockInv (s.setFrameReady false) :=
  { hs with publishedFilled := fun h => nomatch h }

/-- Storing a byte fills the next cell of the bank being filled (R92). -/
theorem storeByte_filled (d : Byte) (hf : Memory.filled (s.bank s.rxWbank) s.rxIdx.val) :
    Memory.filled ((storeByte d s).bank s.rxWbank) (s.rxIdx.val + 1) := by
  rw [storeByte, setBank_bank]
  exact Memory.filled_write d hf

/-- Storing a byte keeps the canonical form of the banks: `rx_idx` is a cell of theirs. -/
theorem storeByte_banksWf (d : Byte)
    (hw : Memory.wf 47 s.rxBank0 = true ∧ Memory.wf 47 s.rxBank1 = true) :
    Memory.wf 47 (storeByte d s).rxBank0 = true ∧ Memory.wf 47 (storeByte d s).rxBank1 = true := by
  obtain ⟨hw0, hw1⟩ := hw
  unfold storeByte
  cases s.rxWbank
  · exact ⟨Memory.wf_write d hw0 s.rxIdx.isLt, hw1⟩
  · exact ⟨hw0, Memory.wf_write d hw1 s.rxIdx.isLt⟩

/-- The bytes of the partial transfer and the one just received have values (R28 (a), R92). -/
theorem BlockInv.byteStored (hs : BlockInv s) (d : Byte) (hi : s.rxIdx.val + 1 < 47) :
    BlockInv ((storeByte d s).armRx .frame ⟨s.rxIdx.val + 1, hi⟩) := by
  have hfill := storeByte_filled d hs.partialFilled
  have hwf := storeByte_banksWf d hs.banksWf
  have hpub : s.frameReady = true → Memory.filled ((storeByte d s).bank s.rxWbank.other) 47 := by
    rw [storeByte_other]
    exact hs.publishedFilled
  rw [storeByte_eq]
  exact { hs with
    idxZero := fun h => absurd rfl h
    partialFilled := hfill
    publishedFilled := hpub
    banksWf := hwf }

/-- The transfer completed by its 47th byte is the bank published (R29 (b), R93). -/
theorem BlockInv.frameCompleted (hs : BlockInv s) (d : Byte) (hi : s.rxIdx.val = 46) :
    BlockInv ((publish (storeByte d s)).armRx .frame 0) := by
  have hfill := storeByte_filled d hs.partialFilled
  have hwf := storeByte_banksWf d hs.banksWf
  rw [hi, ← other_other s.rxWbank] at hfill
  rw [storeByte_eq]
  exact { hs with
    idxZero := fun h => absurd rfl h
    partialFilled := Memory.filled_zero _
    publishedFilled := fun _ => hfill
    banksWf := hwf }

/-! The sweep assembler. -/

theorem BlockInv.clearSweepReady (hs : BlockInv s) : BlockInv (s.setSweepReady false) :=
  { hs with
    sweepCount := fun h => nomatch h
    sweepFilled := fun h => nomatch h
    sweepOrder := fun h => nomatch h }

/-- An empty assembler holds no points, so nothing is asked of its detector (R137). -/
theorem BlockInv.clearSweep (hs : BlockInv s) : BlockInv s.clearSweep :=
  { hs with
    countLt := Nat.zero_lt_of_lt hs.countLt
    bufFilled := Memory.filled_zero _
    heldOrder := inOrder_nil _
    heldValid := fun h => absurd h (Nat.lt_irrefl 0)
    heldLast := fun _ hp => nomatch hp }

/-- The points that stay after the wrap test lie no later in the turn than the point offered: they are
no later than the detector's angle, which did not wrap (R131, R132). -/
theorem BlockInv.rel_baseOf_le (hs : BlockInv s) (p : Point) :
    ∀ q ∈ baseOf p s, rel s.cfg q.angleCd ≤ rel s.cfg p.angleCd := by
  intro q hq
  unfold baseOf at hq
  split at hq
  · cases hq
  · rename_i hc
    have hpos : 0 < s.swCount := by
      rw [← held_length]
      exact List.length_pos_of_mem hq
    have hlast := hs.heldLast q hq
    simp only [closesSweep, wraps, hs.heldValid hpos, hpos, Bool.true_and, decide_true,
      Bool.and_true, decide_eq_true_eq] at hc
    omega

theorem BlockInv.inOrder_baseOf (hs : BlockInv s) (p : Point) : InOrder s.cfg (baseOf p s) := by
  unfold baseOf
  split
  · exact inOrder_nil _
  · exact hs.heldOrder

/-- A RangePoint in the window that lies no earlier than the points before it may follow them. -/
theorem InOrder.append_singleton {c : Config} {ps : List Point} {p : Point} (ho : InOrder c ps)
    (hp : p.wellFormed = true) (hw : rel c p.angleCd < c.spanWidth)
    (hle : ∀ q ∈ ps, rel c q.angleCd ≤ rel c p.angleCd) : InOrder c (ps ++ [p]) where
  legal := List.forall_mem_append.mpr ⟨ho.legal, by simpa using hp⟩
  window := List.forall_mem_append.mpr ⟨ho.window, by simpa using hw⟩
  sorted := List.pairwise_append.mpr ⟨ho.sorted, List.pairwise_singleton _ _, by simpa using hle⟩

theorem BlockInv.inOrder_nowOf (hs : BlockInv s) {p : Point} (hp : p.wellFormed = true) :
    InOrder s.cfg (nowOf p s) := by
  unfold nowOf
  split
  · rename_i hw
    exact (hs.inOrder_baseOf p).append_singleton hp (of_decide_eq_true hw) (hs.rel_baseOf_le p)
  · exact hs.inOrder_baseOf p

theorem BlockInv.rel_nowOf_le (hs : BlockInv s) (p : Point) :
    ∀ q ∈ nowOf p s, rel s.cfg q.angleCd ≤ rel s.cfg p.angleCd := by
  intro q hq
  unfold nowOf at hq
  split at hq
  · rcases List.mem_append.mp hq with hb | hb
    · exact hs.rel_baseOf_le p q hb
    · rw [List.mem_singleton.mp hb]
  · exact hs.rel_baseOf_le p q hq

section Offer

variable {p : Point} {k : Nat}

/-- After a point is offered the buffer is empty, or holds the points it held after the append. -/
theorem OfferSpec.held_cases (ho : OfferSpec p s t k) : t.held = [] ∨ t.held = nowOf p s := by
  by_cases hfull : (nowOf p s).length = s.cfg.nTarget
  · exact .inl (ho.full hfull).2.1
  · cases hc : closesSweep p s with
    | true => exact .inr (ho.closed hfull hc).2.1
    | false => exact .inr (ho.kept hfull hc).2.1

/-- After a point is offered the Sweep is the one there was, or was emitted now: `N_TARGET` points after
the append, or the points held before a wrap. -/
theorem OfferSpec.sweep_cases (ho : OfferSpec p s t k) :
    (t.swOut = s.swOut ∧ t.swOutCount = s.swOutCount ∧ t.sweepReady = s.sweepReady) ∨
      (k = 1 ∧ ((t.emittedSweep = nowOf p s ∧ (nowOf p s).length = s.cfg.nTarget) ∨
        (t.emittedSweep = s.held ∧ 0 < s.swCount))) := by
  by_cases hfull : (nowOf p s).length = s.cfg.nTarget
  · obtain ⟨hk, -, he, -⟩ := ho.full hfull
    exact .inr ⟨hk, .inl ⟨he, hfull⟩⟩
  · cases hc : closesSweep p s with
    | true =>
      obtain ⟨hk, -, he, -⟩ := ho.closed hfull hc
      have hpos : 0 < s.swCount := of_decide_eq_true (Bool.and_eq_true_iff.mp hc).2
      exact .inr ⟨hk, .inr ⟨he, hpos⟩⟩
    | false => exact .inl (ho.kept hfull hc).2.2

@[simp] theorem emittedSweep_length (s : State) : s.emittedSweep.length = s.swOutCount :=
  Memory.points_length _ _

/-- A Sweep that is ready after a point is offered is as R29 (e) asks, and its entries have values. -/
theorem OfferSpec.sweep_ok (ho : OfferSpec p s t k) (hs : BlockInv s) (hp : p.wellFormed = true)
    (hr : t.sweepReady = true) :
    (1 ≤ t.swOutCount ∧ t.swOutCount ≤ s.cfg.nTarget) ∧ Memory.filled t.swOut t.swOutCount ∧
      InOrder s.cfg t.emittedSweep := by
  obtain ⟨-, -, -, hn, -⟩ := config_bounds s.cfg
  rcases ho.sweep_cases with ⟨hout, hcount, hready⟩ | ⟨hk, ⟨he, hl⟩ | ⟨he, hpos⟩⟩
  · rw [hready] at hr
    rw [State.emittedSweep, hout, hcount]
    exact ⟨hs.sweepCount hr, hs.sweepFilled hr, hs.sweepOrder hr⟩
  · have hc : t.swOutCount = s.cfg.nTarget := by rw [← emittedSweep_length, he, hl]
    exact ⟨by omega, ho.outFilled hk, he ▸ hs.inOrder_nowOf hp⟩
  · have hc : t.swOutCount = s.swCount := by rw [← emittedSweep_length, he, held_length]
    have hlt := hs.countLt
    exact ⟨by omega, ho.outFilled hk, he ▸ hs.heldOrder⟩

/-- Offering a RangePoint keeps the invariant (R131 to R134). -/
theorem OfferSpec.blockInv (ho : OfferSpec p s t k) (hs : BlockInv s) (hp : p.wellFormed = true) :
    BlockInv t := by
  have horder : InOrder s.cfg t.held := by
    rcases ho.held_cases with he | he <;> rw [he]
    · exact inOrder_nil _
    · exact hs.inOrder_nowOf hp
  have hlast : ∀ q ∈ t.held, rel s.cfg q.angleCd ≤
      (BitVec.ofNat 16 (rel s.cfg p.angleCd)).toNat := by
    rw [rel_toNat_ofNat]
    rcases ho.held_cases with he | he <;> rw [he]
    · simp
    · exact hs.rel_nowOf_le p
  have hrel : (BitVec.ofNat 16 (rel s.cfg p.angleCd)).toNat < 36000 := by
    rw [rel_toNat_ofNat]
    exact rel_lt _ _
  have hsweep := ho.sweep_ok hs hp
  obtain ⟨hbuf, hout⟩ := hs.sweepMemWf
  rw [ho.shape]
  exact { hs with
    countLt := ho.countLt
    bufFilled := ho.bufFilled
    heldOrder := horder
    heldValid := fun _ => rfl
    heldLast := hlast
    lastRelLt := hrel
    sweepCount := fun h => (hsweep h).1
    sweepFilled := fun h => (hsweep h).2.1
    sweepOrder := fun h => (hsweep h).2.2
    sweepMemWf := ⟨ho.bufWf hbuf, ho.outWf hout⟩ }

end Offer

/-- From the invariant a RangePoint is always taken in, and the invariant is kept. -/
theorem BlockInv.offerPoint_total (hs : BlockInv s) {p : Point} (hp : p.wellFormed = true) :
    ∃ t k, offerPoint p s = .ok (t, k) ∧ BlockInv t := by
  obtain ⟨t, k, h, ho⟩ := offerPoint_ok p s hs.countLt hs.bufFilled
  exact ⟨t, k, h, ho.blockInv hs hp⟩

/-- From the invariant RangePoints are all taken in, one after the other, and it is kept (R135). -/
theorem BlockInv.offerPoints_total (hs : BlockInv s) {ps : List Point}
    (hps : ∀ p ∈ ps, p.wellFormed = true) :
    ∃ t k, offerPoints ps s = .ok (t, k) ∧ BlockInv t := by
  induction ps generalizing s with
  | nil => exact ⟨s, 0, rfl, hs⟩
  | cons p ps ih =>
    obtain ⟨hp, hps⟩ := List.forall_mem_cons.mp hps
    obtain ⟨t, k, ht, hti⟩ := hs.offerPoint_total hp
    obtain ⟨u, j, hu, hui⟩ := ih hti hps
    exact ⟨u, k + j, by simp only [offerPoints, ht, hu], hui⟩

/-! The safety layer. -/

/-- A motor call within the limits keeps the invariant where it is a neutral one or the latch is clear
(R159 (a), (c), (e)). -/
theorem BlockInv.driveMotor (hs : BlockInv s) {c : ActCall} {m : Motor} (hc : callOk s.cfg c)
    (hm : motorOk s.cfg m) (hstop : s.estopped = true → m = .none ∨ m = .neutral) :
    BlockInv (s.driveMotor c m) :=
  { hs with
    estopMotor := hstop
    motorBound := hm
    callsOk := List.forall_mem_append.mpr ⟨hs.callsOk, List.forall_mem_singleton.mpr hc⟩ }

theorem BlockInv.motorNeutral (hs : BlockInv s) : BlockInv (motorNeutral s) :=
  hs.driveMotor trivial trivial fun _ => .inr rfl

/-- A steering call within the limits keeps the invariant (R159 (d)). -/
theorem BlockInv.driveServo (hs : BlockInv s) {p : ServoPos} (hp : servoOk s.cfg p) :
    BlockInv (s.driveServo p) :=
  { hs with
    servoBound := fun q hq => by
      obtain rfl : p = q := Servo.pos.inj hq
      exact hp
    callsOk := List.forall_mem_append.mpr ⟨hs.callsOk, List.forall_mem_singleton.mpr hp⟩ }

theorem BlockInv.neutralise (hs : BlockInv s) : BlockInv (neutralise s) :=
  (hs.driveServo (neutralPos_ok s.cfg)).motorNeutral

/-- The latch may be set where the motor is neutral, and cleared anywhere (R29 (f)). -/
theorem BlockInv.setEstopped (hs : BlockInv s) {b : Bool}
    (hm : b = true → s.actMotor = .none ∨ s.actMotor = .neutral) : BlockInv (s.setEstopped b) :=
  { hs with estopMotor := hm }

theorem BlockInv.toggleLatch (hs : BlockInv s) : BlockInv (toggleLatch s) :=
  hs.neutralise.setEstopped fun _ => .inr (neutralise_actMotor s)

/-! Every operation and every step. -/

/-- Every operation keeps the invariant (R29). -/
theorem BlockInv.of_effect {i : Instr} (hs : BlockInv s) (h : Effect s i t) : BlockInv t := by
  cases h with
  | byteLost => exact hs
  | byteProbed => exact hs.armRx_zero _
  | byteStored d => exact hs.byteStored d _
  | frameCompleted d _ hi => exact hs.frameCompleted d hi
  | errorIgnored => exact hs
  | errorRearmed => exact hs.armRx_zero _
  | begun v => exact (((hs.setBaud v).armRx_zero _).clearFrameReady).pushRes _
  | frameTaken => exact hs.clearFrameReady.pushRes _
  | noFrame | decoded | batchIllegal | pointIllegal | noSweep | steeringFrozen => exact hs.pushRes _
  | sweepTaken => exact hs.clearSweepReady.pushRes _
  | sweepInvalidated => exact hs.clearSweep.pushRes _
  | pointOffered p t k hp ho =>
    obtain ⟨u, j, hu, hui⟩ := hs.offerPoint_total hp
    cases ho.symm.trans hu
    exact hui.pushRes _
  | batchOffered b t k hb ho =>
    obtain ⟨u, j, hu, hui⟩ := hs.offerPoints_total hb
    cases ho.symm.trans hu
    exact hui.pushRes _
  | forwardStopped | reverseStopped => exact hs.motorNeutral.pushRes _
  | forwardDriven v hr =>
    have hd := duty_bounds s.cfg v
    exact (hs.driveMotor (c := .setForwardDuty _) (m := .forward _) hd hd (by simp [hr])).pushRes _
  | reverseDriven v hr =>
    have hd := duty_bounds s.cfg v
    exact (hs.driveMotor (c := .setReverseDuty _) (m := .reverse _) hd hd (by simp [hr])).pushRes _
  | steered a => exact (hs.driveServo (steerPos_ok s.cfg a)).pushRes _
  | paused =>
    exact (hs.neutralise.setEstopped fun _ => .inr (neutralise_actMotor s)).pushRes _
  | unpaused => exact (hs.setEstopped (b := false) fun h => nomatch h).pushRes _
  | toggled => exact hs.toggleLatch.pushRes _
  | edge => exact hs.toggleLatch

/-- Everything a step with a next state can do: nothing with no word waiting, and otherwise the
operation of the word accepted, or nothing but the result `ILLEGAL`. -/
theorem step_cases (h : step s = .next t) :
    t = s ∨ (∃ ws i, exec i (s.setInbox ws) = .next t) ∨ ∃ ws, t = illegalCommand (s.setInbox ws) := by
  unfold step at h
  split at h
  · cases h
    exact .inl rfl
  · split at h
    · exact .inr (.inl ⟨_, _, h⟩)
    · cases h
      exact .inr (.inr ⟨_, rfl⟩)
    · cases h
    · cases h

/-- Settles O48: whatever the word accepted, its operation keeps the invariant. -/
theorem stepKeepsInvariant : Obligations.StepKeepsInvariant := by
  intro s t hs h
  rcases step_cases h with rfl | ⟨ws, i, hi⟩ | ⟨ws, rfl⟩
  · exact hs
  · exact (hs.setInbox ws).of_effect (exec_effect hi)
  · exact (hs.setInbox ws).pushRes _

/-- Settles O47: `State.reset` is the reset state of one record. -/
theorem resetSatisfiesInvariant : Obligations.ResetSatisfiesInvariant :=
  ⟨resetWith_blockInv, resetWith_blockInv Config.default⟩

/-- Settles O11, element by element. -/
theorem resetState : Obligations.ResetState := by
  intro c
  simp

end Sys2Proof.Machine

/-! The takes (20_memory.md R48) and the step that runs an operation (R47). -/

namespace Sys2Proof.Machine

variable {s t : State}

theorem exec_takeFrame_of_not_ready (h : s.frameReady = false) :
    exec .takeFrame s = .next (s.pushRes .noFrame) :=
  (Effect.noFrame h).exec_eq

theorem exec_takeSweep_of_not_ready (h : s.sweepReady = false) :
    exec .takeSweep s = .next (s.pushRes .noSweep) :=
  (Effect.noSweep h).exec_eq

/-- A `TAKE_FRAME` that answers clears the flag or finds it clear (R95). -/
theorem exec_takeFrame_clears (h : exec .takeFrame s = .next t) : t.frameReady = false := by
  cases exec_effect h with
  | frameTaken => rfl
  | noFrame hr => exact hr

/-- A `TAKE_SWEEP` that answers clears the flag or finds it clear (R136). -/
theorem exec_takeSweep_clears (h : exec .takeSweep s = .next t) : t.sweepReady = false := by
  cases exec_effect h with
  | sweepTaken => rfl
  | noSweep hr => exact hr

/-- Settles O20: a take leaves its flag clear, and with the flag clear it only reports `none`. -/
theorem secondTakeFindsNothing : Obligations.SecondTakeFindsNothing := by
  refine ⟨fun s t h => ⟨?_, fun hr => ?_⟩, fun s t h => ⟨?_, fun hr => ?_⟩⟩
  · exact exec_takeFrame_of_not_ready (exec_takeFrame_clears h)
  · cases h.symm.trans (exec_takeFrame_of_not_ready hr)
    rfl
  · exact exec_takeSweep_of_not_ready (exec_takeSweep_clears h)
  · cases h.symm.trans (exec_takeSweep_of_not_ready hr)
    rfl

/-- With an operation's word next, a step is that operation on the words behind it (R47). -/
theorem step_eq_exec {w : PortWord} {ws : List PortWord} {i : Instr} (hw : s.inbox = w :: ws)
    (hi : decode w = .instr i) : step s = exec i (s.setInbox ws) := by
  simp only [step, hw, hi]

/-- No operation touches the words waiting (R49; log entry 1). -/
theorem exec_inbox {i : Instr} (h : exec i s = .next t) : t.inbox = s.inbox := by
  obtain ⟨-, hinbox, -⟩ := elementsWrittenOnlyByTheirOperations i s t h
  exact hinbox

/-- Settles O7: the step is the operation on the remaining words, which the operation leaves alone. -/
theorem stepRunsDecodedOperation : Obligations.StepRunsDecodedOperation := by
  intro s w ws i hw hi
  have hstep : step s = exec i (s.setInbox ws) := step_eq_exec hw hi
  exact ⟨hstep, fun t ht => exec_inbox (hstep.symm.trans ht)⟩

end Sys2Proof.Machine

/-! The operations at the ports of 30_encoding.md: the encoder and the decoder agree (R66, R69 to R72),
what a `CMD` word must be (R71, R73), the results (R74) and the consumer cycle (R78). -/

namespace Sys2Proof

variable {op : Byte} {p : List Byte} {i : Instr}

/-! Each format reads back what the encoder writes (R72). -/

@[simp] theorem operandC2_halfBytes (mk : Half → Instr) (v : Half) :
    operandC2 mk (halfBytes v) = some (mk v) := by
  simp [operandC2, halfBytes]

@[simp] theorem operandC4_wordBytes (v : BitVec 32) :
    operandC4 (wordBytes v) = some (.beginRx v) := by
  simp [operandC4, wordBytes]

@[simp] theorem operandCP_pointBytes (q : Point) :
    operandCP (pointBytes q) = some (.addPoint q) := by
  have hq : pointsOfBytes (pointBytes q) = some [q] := by
    simpa using pointsOfBytes_flatMap [q]
  simp [operandCP, hq]

@[simp] theorem operandCF_bytes (f : Frame) : operandCF f.bytes = some (.decodeFrame f) := by
  simp [operandCF, f.len]

@[simp] theorem operandCB_flatMap (b : Batch) :
    operandCB (b.points.flatMap pointBytes) = some (.addBatch b) := by
  simp [operandCB, b.len]

/-! Which payloads each format reads (R71). -/

theorem operandC0_isSome (i : Instr) (p : List Byte) :
    (operandC0 i p).isSome = true ↔ p.length = 0 := by
  cases p <;> simp [operandC0]

theorem operandC2_isSome (mk : Half → Instr) (p : List Byte) :
    (operandC2 mk p).isSome = true ↔ p.length = 2 := by
  match p with
  | [] | [_] | [_, _] | _ :: _ :: _ :: _ => simp [operandC2]

theorem operandC4_isSome (p : List Byte) : (operandC4 p).isSome = true ↔ p.length = 4 := by
  match p with
  | [] | [_] | [_, _] | [_, _, _] | [_, _, _, _] | _ :: _ :: _ :: _ :: _ :: _ => simp [operandC4]

theorem operandCF_isSome (p : List Byte) : (operandCF p).isSome = true ↔ p.length = 47 := by
  simp [operandCF]

/-- A payload of five bytes for each of `n` points is read as `n` points (R66). -/
theorem pointsOfBytes_of_length {n : Nat} (h : p.length = 5 * n) :
    ∃ ps, pointsOfBytes p = some ps ∧ ps.length = n := by
  induction n generalizing p with
  | zero => exact ⟨[], by rw [List.eq_nil_of_length_eq_zero h]; rfl, rfl⟩
  | succ n ih =>
    match p, h with
    | a0 :: a1 :: d0 :: d1 :: st :: rest, h =>
      obtain ⟨ps, hps, hl⟩ := ih (p := rest) (by simp only [List.length_cons] at h; omega)
      exact ⟨⟨u16le a0 a1, u16le d0 d1, st⟩ :: ps, by simp [pointsOfBytes, hps], by simp [hl]⟩

theorem operandCP_isSome (p : List Byte) : (operandCP p).isSome = true ↔ p.length = 5 := by
  constructor
  · intro h
    unfold operandCP at h
    split at h
    · exact pointsOfBytes_length ‹_›
    · cases h
  · intro h
    obtain ⟨ps, hps, hl⟩ := pointsOfBytes_of_length (n := 1) h
    obtain ⟨q, rfl⟩ := List.length_eq_one_iff.mp hl
    simp [operandCP, hps]

theorem operandCB_isSome (p : List Byte) : (operandCB p).isSome = true ↔ p.length = 60 := by
  constructor
  · intro h
    unfold operandCB at h
    split at h
    · have hp := pointsOfBytes_length ‹_›
      split at h
      · omega
      · cases h
    · cases h
  · intro h
    obtain ⟨ps, hps, hl⟩ := pointsOfBytes_of_length (n := 12) h
    simp [operandCB, hps, hl]

/-- The payload of a legal opcode is read exactly when it has the length R71 gives the opcode. -/
theorem assemble_isSome (op : Byte) (p : List Byte) :
    (assemble op p).isSome = true ↔ payloadLen op = some p.length := by
  by_cases h : op ∈ opcodes
  · obtain ⟨n, hn⟩ := payloadLen_some h
    rw [hn, Option.some_inj, eq_comm (a := n)]
    simp only [opcodes, List.mem_cons, List.not_mem_nil, or_false] at h
    rcases h with rfl | rfl | rfl | rfl | rfl | rfl | rfl | rfl | rfl | rfl | rfl | rfl | rfl <;>
      cases hn
    · exact operandC4_isSome p
    · exact operandC0_isSome _ p
    · exact operandCF_isSome p
    · exact operandCB_isSome p
    · exact operandC0_isSome _ p
    · exact operandC0_isSome _ p
    · exact operandCP_isSome p
    · exact operandC2_isSome _ p
    · exact operandC2_isSome _ p
    · exact operandC2_isSome _ p
    · exact operandC0_isSome _ p
    · exact operandC0_isSome _ p
    · exact operandC0_isSome _ p
  · simp [assemble_none p h, payloadLen_none h]

/-- The operations a `CMD` word can be are those `assemble` makes of it (R71). -/
theorem decode_cmd_eq_instr_iff : decode (.cmd (op :: p)) = .instr i ↔ assemble op p = some i := by
  by_cases h : op ∈ opcodes
  · rw [decode, decodeCmd_cons p h]
    cases assemble op p <;> simp
  · simp [decode, decodeCmd_illegal p h, assemble_none p h]

/-- Settles O1: each format of a payload reads back what the encoder writes for it. -/
theorem decodeEncodeRoundTrip : Obligations.DecodeEncodeRoundTrip := by
  intro i
  cases i with
  | rxByte d => exact congrArg Decoded.instr (decodeRx_data d)
  | rxError => exact congrArg Decoded.instr (decodeRx_error 0#8)
  | estopEdge => rfl
  | beginRx v => exact decode_cmd_eq_instr_iff.mpr (operandC4_wordBytes v)
  | decodeFrame f => exact decode_cmd_eq_instr_iff.mpr (operandCF_bytes f)
  | addBatch b => exact decode_cmd_eq_instr_iff.mpr (operandCB_flatMap b)
  | addPoint q => exact decode_cmd_eq_instr_iff.mpr (operandCP_pointBytes q)
  | setForward v | setReverse v | setSteering v =>
    exact decode_cmd_eq_instr_iff.mpr (operandC2_halfBytes _ v)
  | takeFrame | takeSweep | sweepInvalidate | pause | unpause | togglePause =>
    exact decode_cmd_eq_instr_iff.mpr rfl

/-- What the encoder writes for an operation decodes to it. -/
theorem decode_of_encode {w : PortWord} (h : encode i = w) : decode w = .instr i :=
  h ▸ decodeEncodeRoundTrip i

/-- Settles O2: each word is what the encoder writes for the operation. -/
theorem writtenWordsDecode : Obligations.WrittenWordsDecode :=
  ⟨decode_of_encode (by decide), decode_of_encode (by decide), decode_of_encode (by decide),
    decode_of_encode (by decide), decode_of_encode (by decide), decode_of_encode (by decide),
    decode_of_encode (by decide), decode_of_encode (by decide), decode_of_encode (by decide),
    decode_of_encode (by decide), decode_of_encode (by decide)⟩

/-- R71's table of lengths, read by length. -/
theorem payloadLen_eq_some_iff {n : Nat} : payloadLen op = some n ↔
    (op ∈ [0x02#8, 0x05#8, 0x06#8, 0x18#8, 0x19#8, 0x1A#8] ∧ n = 0) ∨
    (op ∈ [0x10#8, 0x11#8, 0x12#8] ∧ n = 2) ∨
    (op = 0x01#8 ∧ n = 4) ∨ (op = 0x07#8 ∧ n = 5) ∨
    (op = 0x03#8 ∧ n = 47) ∨ (op = 0x04#8 ∧ n = 60) := by
  by_cases h : op ∈ opcodes
  · simp only [opcodes, List.mem_cons, List.not_mem_nil, or_false] at h
    rcases h with rfl | rfl | rfl | rfl | rfl | rfl | rfl | rfl | rfl | rfl | rfl | rfl | rfl <;>
      simp [payloadLen, eq_comm]
  · rw [payloadLen_none h]
    simp_all [opcodes]

/-- Settles O3: a `CMD` word is an operation when its payload is read, which is a matter of length. -/
theorem payloadLengthOfOpcode : Obligations.PayloadLengthOfOpcode := by
  intro op p
  simp only [decode_cmd_eq_instr_iff]
  rw [← Option.isSome_iff_exists, assemble_isSome, payloadLen_eq_some_iff]

/-- A value with too large an angle is no RangePoint (R66, R73 (b)). -/
theorem Point.wellFormed_eq_false {p : Point} (h : 36000 ≤ p.angleCd.toNat) :
    p.wellFormed = false := by
  simpa [Point.wellFormed] using h

end Sys2Proof

namespace Sys2Proof.Machine

variable {s t : State}

/-- Settles O4: an opcode outside R70 is read as illegal, a point with too large an angle is no
RangePoint. -/
theorem illegalCommandsIgnored : Obligations.IllegalCommandsIgnored := by
  refine ⟨fun s op p ws hw hop => ?_, fun s p hp => ?_, fun s b p hmem hp => ?_⟩
  · have hd : decode (.cmd (op :: p)) = .illegalOpcode op := decodeCmd_illegal p hop
    simp only [step, hw, hd]
    rfl
  · exact (Effect.pointIllegal p (Point.wellFormed_eq_false hp)).exec_eq
  · exact (Effect.batchIllegal b ⟨p, hmem, Point.wellFormed_eq_false hp⟩).exec_eq

/-- Settles O10: the points are serialised one after the other, 5 bytes each, and read back. -/
theorem resultForms : Obligations.ResultForms := by
  refine ⟨fun _ => rfl, rfl, rfl, fun ps hps => ⟨BitVec.ofNat 8 ps.length, ps.flatMap pointBytes, ?_⟩⟩
  have hread := pointsOfBytes_flatMap ps
  refine ⟨if_pos (by omega), ?_, pointsOfBytes_length hread, hread⟩
  rw [BitVec.toNat_ofNat, Nat.mod_eq_of_lt (by omega)]

/-- `DECODE` answers OK or an error (R111). -/
theorem decodeResult_cases (c : Config) (f : Frame) :
    decodeResult c f = .ok (unpack c.layout f) ∨ ∃ e, decodeResult c f = .err e := by
  unfold decodeResult
  split
  · split
    · exact .inl rfl
    · exact .inr ⟨_, rfl⟩
  · exact .inr ⟨_, rfl⟩

/-- The assembler puts no word on `RES` of its own. -/
theorem SweepFrame.resOut_eq (h : SweepFrame s t) : t.resOut = s.resOut := by
  unfold SweepFrame at h
  rw [h]

/-- Settles O9, operation by operation; what the assembler does puts no word on `RES` but its count. -/
theorem oneResultPerCommand : Obligations.OneResultPerCommand := by
  intro i s t h
  cases exec_effect h with
  | byteStored | frameCompleted => simp
  | byteLost | byteProbed | errorIgnored | errorRearmed | edge => rfl
  | frameTaken f => exact .inr ⟨f, rfl⟩
  | noFrame => exact .inl rfl
  | decoded f =>
    rcases decodeResult_cases s.cfg f with hd | ⟨e, hd⟩
    · exact .inl ⟨_, by rw [pushRes_resOut, hd]⟩
    · exact .inr ⟨e, by rw [pushRes_resOut, hd]⟩
  | pointOffered p u k _ ho =>
    exact .inr ⟨k, by rw [pushRes_resOut, (offerPoint_sweepFrame ho).resOut_eq]⟩
  | batchOffered b u k _ ho =>
    exact .inr ⟨k, by rw [pushRes_resOut, (offerPoints_sweepFrame ho).resOut_eq]⟩
  | pointIllegal | batchIllegal => exact .inl rfl
  | sweepTaken es => exact .inr ⟨_, rfl⟩
  | noSweep => exact .inl rfl
  | _ => rfl

/-! From the invariant the operations of a consumer cycle complete (R173). -/

theorem BlockInv.exec_total_of_effect (hs : BlockInv s) {i : Instr} (h : ∃ t, Effect s i t) :
    ∃ t, exec i s = .next t ∧ BlockInv t := by
  obtain ⟨t, ht⟩ := h
  exact ⟨t, ht.exec_eq, hs.of_effect ht⟩

theorem BlockInv.exec_takeFrame_total (hs : BlockInv s) :
    ∃ t, exec .takeFrame s = .next t ∧ BlockInv t := by
  apply hs.exec_total_of_effect
  cases hr : s.frameReady with
  | false => exact ⟨_, .noFrame hr⟩
  | true =>
    cases hf : publishedFrame s with
    | ok f => exact ⟨_, .frameTaken f hr hf⟩
    | error e =>
      obtain ⟨a, ha, hnone⟩ := (publishedFrame_error s).mp ⟨e, hf⟩
      have hsome := hs.publishedFilled hr a ha
      rw [hnone] at hsome
      cases hsome

theorem BlockInv.exec_addBatch_total (hs : BlockInv s) (b : Batch) :
    ∃ t, exec (.addBatch b) s = .next t ∧ BlockInv t := by
  apply hs.exec_total_of_effect
  by_cases hb : ∀ p ∈ b.points, p.wellFormed = true
  · obtain ⟨t, k, ht, -⟩ := hs.offerPoints_total hb
    exact ⟨_, .batchOffered b t k hb ht⟩
  · exact ⟨_, .batchIllegal b (by simpa using hb)⟩

theorem BlockInv.exec_takeSweep_total (hs : BlockInv s) :
    ∃ t, exec .takeSweep s = .next t ∧ BlockInv t := by
  apply hs.exec_total_of_effect
  cases hr : s.sweepReady with
  | false => exact ⟨_, .noSweep hr⟩
  | true =>
    obtain ⟨-, -, -, -, hfifo, -⟩ := config_bounds s.cfg
    obtain ⟨-, hcount⟩ := hs.sweepCount hr
    obtain ⟨es, hes, -⟩ := readCells_points .swout s.cfg.fifoDepth s.swOut s.swOutCount
      (hcount.trans hfifo) (hs.sweepFilled hr)
    exact ⟨_, .sweepTaken es hr hes⟩

/-! The consumer cycle (R78), stage by stage. -/

@[simp] theorem lastResult_pushRes (s : State) (r : Result) :
    (s.pushRes r).lastResult = some r := List.getLast?_concat

theorem pollSweep_pushRes_emitted (s : State) (k : Nat) :
    pollSweep (s.pushRes (.emitted k)) =
      if 0 < k then exec .takeSweep (s.pushRes (.emitted k))
      else .next (s.pushRes (.emitted k)) := by
  simp only [pollSweep, lastResult_pushRes]

theorem pollBatch_pushRes_ok {b : Batch} (h : exec (.addBatch b) (s.pushRes (.ok b)) = .next t) :
    pollBatch (s.pushRes (.ok b)) = pollSweep t := by
  simp only [pollBatch, lastResult_pushRes, h]

theorem pollBatch_pushRes_err (s : State) (e : DecodeError) :
    pollBatch (s.pushRes (.err e)) = .next (s.pushRes (.err e)) := by
  simp only [pollBatch, lastResult_pushRes]

theorem pollFrame_pushRes_frame (s : State) (f : Frame) :
    pollFrame (s.pushRes (.frame f)) =
      pollBatch ((s.pushRes (.frame f)).pushRes (decodeResult s.cfg f)) := by
  simp only [pollFrame, lastResult_pushRes]
  rfl

theorem pollFrame_pushRes_noFrame (s : State) :
    pollFrame (s.pushRes .noFrame) = .next (s.pushRes .noFrame) := by
  simp only [pollFrame, lastResult_pushRes]

theorem poll_of_takeFrame (h : exec .takeFrame s = .next t) : poll s = pollFrame t := by
  simp only [poll, h]

/-- A taken frame goes through `DECODE` to the assembler (R78). -/
theorem poll_of_frameTaken {f : Frame}
    (h : exec .takeFrame s = .next ((s.setFrameReady false).pushRes (.frame f))) :
    poll s =
      pollBatch (((s.setFrameReady false).pushRes (.frame f)).pushRes (decodeResult s.cfg f)) :=
  (poll_of_takeFrame h).trans (pollFrame_pushRes_frame _ f)

/-- Settles O52: with no frame the cycle ends at `TAKE_FRAME`, with an error at `DECODE`. -/
theorem pollStopsAtError : Obligations.PollStopsAtError := by
  refine fun s => ⟨fun hr => ?_, fun f e hf he => ?_⟩
  · exact (poll_of_takeFrame (exec_takeFrame_of_not_ready hr)).trans (pollFrame_pushRes_noFrame s)
  · rw [poll_of_frameTaken hf, he, pollBatch_pushRes_err]
    simp [State.pushRes, State.setFrameReady]

/-- A batch that `DECODE` gave is the unpacked frame (R111). -/
theorem eq_unpack_of_decodeResult {c : Config} {f : Frame} {b : Batch}
    (h : decodeResult c f = .ok b) : b = unpack c.layout f := by
  rcases decodeResult_cases c f with hd | ⟨e, hd⟩
  · exact Result.ok.inj (h.symm.trans hd)
  · cases h.symm.trans hd

/-- A batch of RangePoints that is answered is answered with a count of Sweeps (R74, R135). -/
theorem exec_addBatch_emitted {b : Batch} (hb : ∀ p ∈ b.points, p.wellFormed = true)
    (h : exec (.addBatch b) s = .next t) :
    ∃ (u : State) (k : Nat), t = u.pushRes (.emitted k) ∧ u.resOut = s.resOut := by
  cases exec_effect h with
  | batchOffered _ u k _ ho => exact ⟨u, k, rfl, (offerPoints_sweepFrame ho).resOut_eq⟩
  | batchIllegal _ hi =>
    obtain ⟨p, hp, hw⟩ := hi
    cases (hb p hp).symm.trans hw

theorem BlockInv.pollSweep_total (hs : BlockInv s) : ∃ t, pollSweep s = .next t ∧ BlockInv t := by
  unfold pollSweep
  split
  · split
    · exact hs.exec_takeSweep_total
    · exact ⟨s, rfl, hs⟩
  · exact ⟨s, rfl, hs⟩

theorem BlockInv.pollBatch_total (hs : BlockInv s) : ∃ t, pollBatch s = .next t ∧ BlockInv t := by
  unfold pollBatch
  split
  case h_1 b _ =>
    obtain ⟨t, ht, hti⟩ := hs.exec_addBatch_total b
    rw [ht]
    exact hti.pollSweep_total
  case h_2 => exact ⟨s, rfl, hs⟩

theorem BlockInv.pollFrame_total (hs : BlockInv s) : ∃ t, pollFrame s = .next t ∧ BlockInv t := by
  unfold pollFrame
  split
  case h_1 f _ => exact (hs.pushRes (decodeResult s.cfg f)).pollBatch_total
  case h_2 => exact ⟨s, rfl, hs⟩

theorem BlockInv.poll_total (hs : BlockInv s) : ∃ t, poll s = .next t ∧ BlockInv t := by
  obtain ⟨t, ht, hti⟩ := hs.exec_takeFrame_total
  rw [poll_of_takeFrame ht]
  exact hti.pollFrame_total

/-- Settles O53: a batch that `DECODE` gave is of RangePoints (R117 (c)), so the assembler answers it
with a count. -/
theorem pollDecodesAssemblesAndTakes : Obligations.PollDecodesAssemblesAndTakes := by
  refine ⟨fun s u f b hf hd hb => ?_, fun s hs => hs.poll_total⟩
  have hok : decodeResult s.cfg f = .ok b := by
    have hres := congrArg State.resOut (Host.Outcome.next.inj hd)
    simpa using hres
  have hstate : { s with frameReady := false, resOut := s.resOut ++ [.frame f, .ok b] } =
      ((s.setFrameReady false).pushRes (.frame f)).pushRes (.ok b) := by
    simp [State.pushRes, State.setFrameReady]
  have hlegal : ∀ p ∈ b.points, p.wellFormed = true := by
    rw [eq_unpack_of_decodeResult hok]
    exact unpack_wellFormed s.cfg.layout f
  rw [hstate] at hb
  obtain ⟨v, k, rfl, hv⟩ := exec_addBatch_emitted hlegal hb
  refine ⟨k, by simp [hv], ?_⟩
  rw [poll_of_frameTaken hf, hok, pollBatch_pushRes_ok hb, pollSweep_pushRes_emitted]

end Sys2Proof.Machine

/-! The ingestion buffer of 40_ingest.md: arming (R91, R94), a byte (R92, R93), whole and abandoned
transfers, and the frame that `TAKE_FRAME` returns (R95, R96). -/

namespace Sys2Proof

/-- R72: the value of the 4-byte operand, half by half. -/
theorem u32le_toNat (b0 b1 b2 b3 : Byte) : (u32le b0 b1 b2 b3).toNat =
    b0.toNat + 256 * b1.toNat + 65536 * b2.toNat + 16777216 * b3.toNat := by
  have happ : (u32le b0 b1 b2 b3).toNat = (u16le b2 b3).toNat <<< 16 ||| (u16le b0 b1).toNat :=
    BitVec.toNat_append _ _
  rw [happ, ← Nat.shiftLeft_add_eq_or_of_lt (u16le b0 b1).isLt, Nat.shiftLeft_eq,
    Machine.u16le_toNat, Machine.u16le_toNat]
  omega

end Sys2Proof

namespace Sys2Proof.Machine

variable {s t : State}

/-! One operation of the receiver. -/

/-- Settles O16: the payload is `baud`, least significant byte first, and `BEGIN` looks at no element
of the state it restarts. -/
theorem beginRestartsReceiver : Obligations.BeginRestartsReceiver :=
  ⟨fun b0 b1 b2 b3 =>
      ⟨u32le b0 b1 b2 b3, decode_cmd_eq_instr_iff.mpr rfl, u32le_toNat b0 b1 b2 b3⟩,
    fun v _ => (Effect.begun v).exec_eq⟩

/-- Arming in the phase the receiver is in writes the count only. -/
theorem armRx_eq_of_phase {ph : RxPhase} (h : s.rxPhase = ph) (i : Fin 47) :
    s.armRx ph i = { s with rxIdx := i } := by
  subst h
  rfl

/-- Settles O17, phase by phase; in FRAME the byte is stored, and the 47th is then published. -/
theorem rxByteReceives : Obligations.RxByteReceives := by
  refine ⟨fun d => congrArg Decoded.instr (decodeRx_data d),
    fun d s => ⟨fun hp => ?_, fun hp => ?_, fun hp => ?_⟩⟩
  · exact (Effect.byteLost d hp).exec_eq
  · exact (Effect.byteProbed d hp).exec_eq
  · by_cases hi : s.rxIdx.val = 46
    · refine ⟨_, (Effect.frameCompleted d hp hi).exec_eq, ?_, fun a => ?_, ?_,
        fun hn => absurd hi hn, fun _ => ⟨rfl, by simp, rfl⟩⟩
      · rw [storeByte_eq, armRx_eq_of_phase]
        · rfl
        · exact hp
      · rw [armRx_bank, publish_bank, storeByte_read]
      · rw [armRx_bank, publish_bank, storeByte_other]
    · refine ⟨_, (Effect.byteStored d hp hi).exec_eq, ?_, fun a => ?_, ?_,
        fun _ => ⟨rfl, by simp, by simp⟩, fun hn => absurd hn hi⟩
      · rw [storeByte_eq, armRx_eq_of_phase]
        exact hp
      · rw [armRx_bank, storeByte_read]
      · rw [armRx_bank, storeByte_other]

/-- Settles O18: the error arms an empty transfer in every phase but IDLE. -/
theorem rxErrorRearms : Obligations.RxErrorRearms :=
  ⟨fun d => congrArg Decoded.instr (decodeRx_error d),
    fun _ =>
      ⟨fun hp => (Effect.errorIgnored hp).exec_eq, fun hp => (Effect.errorRearmed hp).exec_eq⟩⟩

/-- Settles O19: 47 cells with the values of `f` are the frame `f`. -/
theorem takeFrameReturnsPublishedFrame : Obligations.TakeFrameReturnsPublishedFrame := by
  refine ⟨decode_cmd_eq_instr_iff.mpr rfl,
    fun s => ⟨exec_takeFrame_of_not_ready, fun f hr hc => ?_⟩⟩
  have hf : publishedFrame s = .ok f := publishedFrame_ok s f fun a ha => by
    rw [← List.getD_eq_getElem f.bytes 0#8]
    exact hc a ha
  exact (Effect.frameTaken f hr hf).exec_eq

/-! Runs of operations (20_memory.md R49). -/

theorem execAll_cons {i : Instr} (h : exec i s = .next t) (is : List Instr) :
    execAll (i :: is) s = execAll is t := by
  simp only [execAll, h]

theorem execAll_append {is : List Instr} (h : execAll is s = .next t) (js : List Instr) :
    execAll (is ++ js) s = execAll js t := by
  induction is generalizing s with
  | nil =>
    cases h
    rfl
  | cons i is ih =>
    cases hi : exec i s with
    | next u =>
      rw [execAll_cons hi] at h
      rw [List.cons_append, execAll_cons hi, ih h]
    | fault e => simp [execAll, hi] at h
    | refused r => simp [execAll, hi] at h

theorem execAll_concat {is : List Instr} {i : Instr} {u : State} (h : execAll is s = .next t)
    (hi : exec i t = .next u) : execAll (is ++ [i]) s = .next u :=
  (execAll_append h [i]).trans (execAll_cons hi [])

/-! A transfer, from the state `s` with no byte of it stored. -/

/-- `t` is `s` but for the count and the bank being filled, whose first cells hold `bs`. -/
structure Stored (bs : List Byte) (s t : State) : Prop where
  shape : t = { s with rxIdx := t.rxIdx, rxBank0 := t.rxBank0, rxBank1 := t.rxBank1 }
  cells : ∀ a, a < bs.length → Memory.read (t.bank s.rxWbank) a = bs[a]?
  other : t.bank s.rxWbank.other = s.bank s.rxWbank.other

variable {bs : List Byte}

theorem Stored.nil (s : State) : Stored [] s s := ⟨rfl, by simp, rfl⟩

theorem Stored.wbank_eq (h : Stored bs s t) : t.rxWbank = s.rxWbank := by
  rw [h.shape]

theorem Stored.phase_eq (h : Stored bs s t) : t.rxPhase = s.rxPhase := by
  rw [h.shape]

/-- With the count as before, only the banks differ. -/
theorem Stored.eq_of_idx (h : Stored bs s t) (hi : t.rxIdx = s.rxIdx) :
    t = { s with rxBank0 := t.rxBank0, rxBank1 := t.rxBank1 } := by
  have hshape := h.shape
  rwa [hi] at hshape

/-- The next byte of the transfer goes to the cell after those stored (R92). -/
theorem Stored.storeByte (h : Stored bs s t) (hi : t.rxIdx.val = bs.length) (d : Byte) :
    Stored (bs ++ [d]) s (storeByte d t) := by
  have hw := h.wbank_eq
  refine ⟨?_, fun a ha => ?_, ?_⟩
  · rw [storeByte_eq, h.shape]
  · rw [← hw, storeByte_read, hi, hw]
    split
    · rename_i hlast
      simp [hlast]
    · have hlt : a < bs.length := by
        rw [List.length_append, List.length_singleton] at ha
        omega
      rw [h.cells a hlt, List.getElem?_append_left hlt]
  · rw [← h.other, ← hw, storeByte_other]

/-- Arming in phase FRAME leaves the stored bytes where they are (R90). -/
theorem Stored.armRx (h : Stored bs s t) (hp : s.rxPhase = .frame) (i : Fin 47) :
    Stored bs s (t.armRx .frame i) := by
  refine ⟨?_, fun a ha => ?_, ?_⟩
  · rw [armRx_eq_of_phase (h.phase_eq.trans hp), h.shape]
  · rw [armRx_bank, h.cells a ha]
  · rw [armRx_bank, h.other]

/-- The bytes of a partial transfer are stored, one cell each, and nothing is published (R92). -/
theorem execAll_rxBytes (hp : s.rxPhase = .frame) (hi : s.rxIdx = 0) (hl : bs.length < 47) :
    ∃ t, execAll (bs.map .rxByte) s = .next t ∧ Stored bs s t ∧ t.rxIdx.val = bs.length := by
  induction bs using List.reverseRecOn with
  | nil => exact ⟨s, rfl, .nil s, by rw [hi]; rfl⟩
  | append_singleton bs d ih =>
    rw [List.length_append, List.length_singleton] at hl
    obtain ⟨t, ht, hst, hidx⟩ := ih (by omega)
    have hbyte := (Effect.byteStored d (hst.phase_eq.trans hp) (by omega)).exec_eq
    rw [List.map_append]
    refine ⟨_, execAll_concat ht hbyte, (hst.storeByte hidx d).armRx hp _, ?_⟩
    rw [List.length_append]
    exact congrArg (· + 1) hidx

/-- The 47 bytes of a whole transfer are stored and then published (R93). -/
theorem execAll_rxFrame (f : Frame) (hp : s.rxPhase = .frame) (hi : s.rxIdx = 0) :
    ∃ t, execAll (rxFrame f) s = .next (publish t) ∧ Stored f.bytes s t ∧ t.rxIdx = 0 := by
  have hne : f.bytes ≠ [] := List.ne_nil_of_length_eq_add_one f.len
  obtain ⟨bs, d, hf⟩ := (List.eq_nil_or_concat' f.bytes).resolve_left hne
  have hlen : bs.length = 46 := by simpa [hf] using f.len
  obtain ⟨t, ht, hst, hidx⟩ := execAll_rxBytes hp hi (bs := bs) (by omega)
  have hbyte := (Effect.frameCompleted d (hst.phase_eq.trans hp) (hidx.trans hlen)).exec_eq
  refine ⟨(storeByte d t).armRx .frame 0, ?_, ?_, rfl⟩
  · rw [rxFrame, hf, List.map_append]
    exact execAll_concat ht hbyte
  · rw [hf]
    exact (hst.storeByte hidx d).armRx hp 0

/-- A stored frame is taken once it is published (R95). -/
theorem Stored.exec_takeFrame {f : Frame} (h : Stored f.bytes s t) :
    exec .takeFrame (publish t) = .next { publish t with
      frameReady := false, resOut := s.resOut ++ [.frame f] } := by
  have hf : publishedFrame (publish t) = .ok f := publishedFrame_ok _ f fun a ha => by
    have ha' : a < f.bytes.length := by rwa [f.len]
    rw [State.published, publish_rxWbank, other_other, publish_bank, h.wbank_eq, h.cells a ha',
      List.getElem?_eq_getElem ha']
  have hres : t.resOut = s.resOut := by rw [h.shape]
  rw [(Effect.frameTaken f rfl hf).exec_eq, ← hres]
  rfl

/-- Settles O21: the bytes fill the bank being filled, which the last of them publishes. -/
theorem receivedFrameIsTaken : Obligations.ReceivedFrameIsTaken := by
  intro f s hp hi
  obtain ⟨t, ht, hst, hidx⟩ := execAll_rxFrame f hp hi
  refine ⟨publish t, ht, ?_, ?_, hst.exec_takeFrame⟩
  · rw [hst.eq_of_idx (hidx.trans hi.symm)]
    rfl
  · rw [publish_bank, hst.other]

/-- Settles O22: the error discards the count of the bytes stored, and the whole frame after it starts
from no byte again. -/
theorem errorDiscardsPartialTransfer : Obligations.ErrorDiscardsPartialTransfer := by
  intro ds f s hl hp hi
  obtain ⟨t, ht, hst, -⟩ := execAll_rxBytes hp hi hl
  have hphase : t.rxPhase = .frame := hst.phase_eq.trans hp
  have herr : exec .rxError t = .next (t.armRx .frame 0) :=
    (Effect.errorRearmed (by simp [hphase])).exec_eq
  have hrearmed : Stored ds s (t.armRx .frame 0) := hst.armRx hp 0
  have heq := hrearmed.eq_of_idx hi.symm
  obtain ⟨u, hu, -, -, htake⟩ := receivedFrameIsTaken f (t.armRx .frame 0) rfl rfl
  refine ⟨⟨_, execAll_concat ht herr, heq, hrearmed.other⟩, u, ?_, ?_⟩
  · rw [execAll_append ht, execAll_cons herr, hu]
  · rw [htake, heq]

/-- Settles O23: the second frame is received from the state the first one leaves, and published in its
place; the second take finds the flag clear. -/
theorem olderFrameOverwritten : Obligations.OlderFrameOverwritten := by
  intro f g s hp hi
  obtain ⟨t, ht, htshape, -, -⟩ := receivedFrameIsTaken f s hp hi
  obtain ⟨u, hu, hushape, -, htake⟩ := receivedFrameIsTaken g t (by rw [htshape, hp])
    (by rw [htshape, hi])
  have hnone := exec_takeFrame_of_not_ready (exec_takeFrame_clears htake)
  have hfg : execAll (rxFrame f ++ rxFrame g) s = .next u := (execAll_append ht _).trans hu
  have htakes := execAll_concat (execAll_cons htake []) hnone
  refine ⟨_, (execAll_append hfg _).trans htakes, ?_, ?_⟩
  · rw [pushRes_resOut, htshape]
    simp
  · rw [pushRes_rxWbank, hushape, htshape]
    exact other_other _

end Sys2Proof.Machine

/-! The packet decoder of 41_decoder.md: the checks of `DECODE` (R111), the fields of the batch (R114,
R115), the order of its angles (R117), the checksum (R112) and the frames that are rejected. -/

namespace Sys2Proof.Machine

variable {c : Config} {f : Frame} {s t : State}

/-! The result of `DECODE` (R111). -/

theorem headerOk_iff : headerOk c f = true ↔ f.bytes.getD 0 0#8 = c.header := decide_eq_true_iff

theorem checksumOk_iff : checksumOk c f = true ↔
    checksum c.checksum (f.bytes.take 46) = f.bytes.getD 46 0#8 :=
  decide_eq_true_iff

theorem decodeResult_of_header_ne (hhead : f.bytes.getD 0 0#8 ≠ c.header) :
    decodeResult c f = .err .headerMismatch :=
  if_neg (headerOk_iff.not.mpr hhead)

theorem decodeResult_of_checksum_ne (hhead : f.bytes.getD 0 0#8 = c.header)
    (hsum : checksum c.checksum (f.bytes.take 46) ≠ f.bytes.getD 46 0#8) :
    decodeResult c f = .err .checksumMismatch :=
  (if_pos (headerOk_iff.mpr hhead)).trans (if_neg (checksumOk_iff.not.mpr hsum))

theorem decodeResult_of_checks (hhead : f.bytes.getD 0 0#8 = c.header)
    (hsum : checksum c.checksum (f.bytes.take 46) = f.bytes.getD 46 0#8) :
    decodeResult c f = .ok (unpack c.layout f) :=
  (if_pos (headerOk_iff.mpr hhead)).trans (if_pos (checksumOk_iff.mpr hsum))

/-- A frame that decodes passed both checks. -/
theorem checks_of_decodeResult_ok {b : Batch} (h : decodeResult c f = .ok b) :
    f.bytes.getD 0 0#8 = c.header ∧
      checksum c.checksum (f.bytes.take 46) = f.bytes.getD 46 0#8 := by
  by_cases hhead : f.bytes.getD 0 0#8 = c.header
  · refine ⟨hhead, ?_⟩
    by_contra hsum
    cases (decodeResult_of_checksum_ne hhead hsum).symm.trans h
  · cases (decodeResult_of_header_ne hhead).symm.trans h

/-- `DECODE` only reports: the state is the old one with the result on `RES` (R110). -/
theorem exec_decodeFrame_of_result {r : Result} (h : decodeResult s.cfg f = r) :
    exec (.decodeFrame f) s = .next { s with resOut := s.resOut ++ [r] } :=
  h ▸ (Effect.decoded f).exec_eq

/-- What `DECODE` put on `RES` is its result. -/
theorem decodeResult_of_exec {r : Result} (h : exec (.decodeFrame f) s = .next t)
    (hr : t.resOut = s.resOut ++ [r]) : decodeResult s.cfg f = r := by
  cases exec_effect h with
  | decoded => simpa using hr

/-! The fields of the batch (R114, R115). -/

theorem frameHalf_toNat (f : Frame) (off : Nat) : (frameHalf f off).toNat =
    (f.bytes.getD off 0#8).toNat + 256 * (f.bytes.getD (off + 1) 0#8).toNat :=
  u16le_toNat _ _

theorem unpack_points_getElem? (l : Layout) (f : Frame) {i : Nat} (hi : i < 12) :
    (unpack l f).points[i]? = some (lane l f i) := by
  simp [unpack, hi]

@[simp] theorem lane_angleCd_toNat (l : Layout) (f : Frame) (i : Nat) :
    (lane l f i).angleCd.toNat = interp (startCd l f) (endCd l f) i :=
  interp_toNat_ofNat _ _ _

/-- R115: the span is the residue itself, which is not negative. -/
theorem spanCd_cast (start stop : Nat) :
    (spanCd start stop : Int) = ((stop : Int) - (start : Int)) % 36000 :=
  Int.toNat_of_nonneg (Int.emod_nonneg _ (by decide))

/-- R61's table of offsets is the model's. -/
theorem offsets_of_layout {l : Layout} {oStart oRec oEnd : Nat}
    (h : (l = .doc ∧ oStart = 2 ∧ oRec = 4 ∧ oEnd = 40) ∨
      (l = .ld06 ∧ oStart = 4 ∧ oRec = 6 ∧ oEnd = 42)) :
    oStart = startOffset l ∧ oRec = recordOffset l ∧ oEnd = endOffset l := by
  rcases h with ⟨rfl, h⟩ | ⟨rfl, h⟩ <;> exact h

/-- Settles O24: the checks in their order; each lane reads its own record and the two angle fields
(R116). -/
theorem decodeChecksAndUnpacks : Obligations.DecodeChecksAndUnpacks := by
  refine fun f s => ⟨decode_of_encode rfl, decodeResult s.cfg f, exec_decodeFrame_of_result rfl,
    decodeResult_of_header_ne, decodeResult_of_checksum_ne, fun hhead hsum =>
      ⟨unpack s.cfg.layout f, decodeResult_of_checks hhead hsum, ?_⟩⟩
  intro oStart oRec oEnd hl start stop span hstart hstop hspan i hi
  obtain ⟨rfl, rfl, rfl⟩ := offsets_of_layout hl
  rw [← frameHalf_toNat] at hstart hstop
  have hspan : span = spanCd start stop :=
    Int.ofNat_inj.mp (hspan.trans (spanCd_cast start stop).symm)
  refine ⟨lane s.cfg.layout f i, unpack_points_getElem? _ _ hi, ?_, frameHalf_toNat _ _, rfl⟩
  rw [hspan, hstart, hstop]
  exact lane_angleCd_toNat s.cfg.layout f i

/-! The angles of the batch (R117). -/

/-- R117 (b): seen from point 0, point `i` lies at the offset `o_i = span * i div 11`. -/
theorem interp_sub_interp_zero (start stop : Nat) {i : Nat} (hi : i ≤ 11) :
    ((interp start stop i : Int) - (interp start stop 0 : Int)) % 36000 =
      (spanCd start stop * i / 11 : Nat) := by
  have hspan := spanCd_lt start stop
  have hoff : spanCd start stop * i / 11 ≤ spanCd start stop :=
    Nat.div_le_of_le_mul (by rw [Nat.mul_comm]; exact Nat.mul_le_mul_right _ hi)
  simp only [interp, Nat.mul_zero, Nat.zero_div, Nat.add_zero]
  omega

/-- R117 (b): the offsets do not decrease. -/
theorem offset_mono (span : Nat) {i j : Nat} (h : i ≤ j) : span * i / 11 ≤ span * j / 11 :=
  Nat.div_le_div_right (Nat.mul_le_mul_left _ h)

/-- Settles O25: seen from the first angle, the angles are the offsets, which do not decrease. -/
theorem decodedAnglesInOrder : Obligations.DecodedAnglesInOrder := by
  intro f s t b h hb
  obtain rfl := eq_unpack_of_decodeResult (decodeResult_of_exec h hb)
  refine ⟨interp (startCd s.cfg.layout f) (endCd s.cfg.layout f), fun i hi => ⟨?_, interp_lt _ _ _⟩,
    fun i j hij hj => ?_⟩
  · rw [List.getElem?_map, unpack_points_getElem? _ _ hi, Option.map_some, lane_angleCd_toNat]
  · rw [interp_sub_interp_zero _ _ (by omega : i ≤ 11), interp_sub_interp_zero _ _ (by omega : j ≤ 11),
      interp_sub_interp_zero _ _ (le_refl 11)]
    exact ⟨Int.ofNat_le.mpr (offset_mono _ hij), Int.ofNat_le.mpr (offset_mono _ (by omega))⟩

/-! The checksum (R112). -/

@[simp] theorem crcFold_nil (poly c : Byte) : crcFold poly c [] = c := rfl

@[simp] theorem crcFold_cons (poly c b : Byte) (bs : List Byte) :
    crcFold poly c (b :: bs) = crcFold poly (crcStep poly c b) bs := rfl

@[simp] theorem crcFold_append (poly c : Byte) (as bs : List Byte) :
    crcFold poly c (as ++ bs) = crcFold poly (crcFold poly c as) bs :=
  List.foldl_append

/-- A byte equal to the remainder clears it. -/
@[simp] theorem crcStep_self (poly c : Byte) : crcStep poly c c = 0#8 := by
  simp [crcStep]

theorem crcStep_xor (poly a b x y : Byte) :
    crcStep poly (a ^^^ b) (x ^^^ y) = crcStep poly a x ^^^ crcStep poly b y := by
  rw [crcStep, crcStep, crcStep, ← crcShifts_xor]
  congr 1
  ac_rfl

/-- Seven rounds bring bit 0 to bit 7, the eighth takes it for the polynomial. -/
theorem crcShifts_eight_one (poly : Byte) : crcShifts poly 8 0x01#8 = poly := by
  simp [crcShifts, crcShift_eq]

/-- Zero bytes leave the remainder 0. -/
theorem crcFold_replicate_zero (poly : Byte) (n : Nat) :
    crcFold poly 0#8 (List.replicate n 0#8) = 0#8 := by
  induction n with
  | zero => rfl
  | succ n ih => rw [List.replicate_succ, crcFold_cons, crcStep_self, ih]

/-- The loop is linear over xor, in the initial value and in the bytes. -/
theorem crcFold_zipWith_xor (poly a b : Byte) {as bs : List Byte} (h : as.length = bs.length) :
    crcFold poly (a ^^^ b) (List.zipWith (· ^^^ ·) as bs) =
      crcFold poly a as ^^^ crcFold poly b bs := by
  induction as generalizing a b bs with
  | nil =>
    obtain rfl := List.length_eq_zero_iff.mp h.symm
    rfl
  | cons x as ih =>
    cases bs with
    | nil => cases h
    | cons y bs =>
      rw [List.zipWith_cons_cons, crcFold_cons, crcStep_xor, ih _ _ (Nat.succ.inj h)]
      rfl

/-- The checksum with initial value and final xor 0 is the remainder of the loop. -/
theorem checksum_crc8_zero (poly : Byte) (bs : List Byte) :
    checksum (.crc8 ⟨poly, 0#8, 0#8, false, false⟩) bs = crcFold poly 0#8 bs :=
  (crc8_plain poly 0#8 0#8 bs).trans BitVec.xor_zero

/-- The loop with its eight rounds a byte written out. -/
theorem crcFold_eq_foldl_iterate (poly c : Byte) (bs : List Byte) :
    crcFold poly c bs = bs.foldl (fun x b => (crcShift poly)^[8] (x ^^^ b)) c := by
  simp only [← crcShifts_eq_iterate]
  rfl

/-- An entry of the byte table is the rounds of one byte. -/
theorem crcFold_singleton (poly b : Byte) : crcFold poly 0#8 [b] = crcShifts poly 8 b := by
  rw [crcFold_cons, crcFold_nil, crcStep, BitVec.zero_xor]

/-- The loop reads each byte off the byte table. -/
theorem crcFold_eq_foldl_table (poly c : Byte) (bs : List Byte) :
    crcFold poly c bs = bs.foldl (fun x b => crcFold poly 0#8 [x ^^^ b]) c := by
  simp only [crcFold_singleton]
  rfl

/-- Settles O26: the round is the model's, and the laws are those of its loop. -/
theorem crcLaws : Obligations.CrcLaws := by
  refine ⟨rfl, by decide, fun poly round hround => ?_⟩
  obtain rfl : round = crcShift poly := funext fun x => (hround x).trans (crcShift_eq poly x).symm
  refine ⟨fun init xorOut bs => ?_, fun c hc => ?_⟩
  · rw [← crcFold_eq_foldl_iterate]
    exact crc8_plain poly init xorOut bs
  · obtain rfl : c = crcFold poly 0#8 := hc.trans (funext (checksum_crc8_zero poly))
    refine ⟨fun b => ?_, ?_, crcFold_nil poly 0#8, crcFold_replicate_zero poly, fun bs => ?_,
      fun as bs hl => crcFold_zipWith_xor poly 0#8 0#8 hl, crcFold_eq_foldl_table poly 0#8⟩
    · rw [crcFold_singleton, crcShifts_eq_iterate]
    · rw [crcFold_singleton, crcShifts_eight_one]
    · rw [crcFold_append, crcFold_cons, crcStep_self, crcFold_nil]

/-! Frames that are rejected (R111 (c), R117). -/

/-- Settles O27: byte 46 is not among the bytes the checksum covers (R113), so its check fails; with byte
0 altered the header check fails. -/
theorem alteredFrameRejected : Obligations.AlteredFrameRejected := by
  intro f g s b v h
  obtain ⟨hhead, hsum⟩ := checks_of_decodeResult_ok (decodeResult_of_exec h rfl)
  have hlen := f.len
  refine ⟨fun hg hv => exec_decodeFrame_of_result ?_, fun hg hv => exec_decodeFrame_of_result ?_⟩
  · have hhead' : g.bytes.getD 0 0#8 = s.cfg.header := by
      rw [hg, ← hhead]
      simp
    refine decodeResult_of_checksum_ne hhead' ?_
    rw [hg, List.take_set_of_le (le_refl 46), hsum]
    simpa [hlen] using hv.symm
  · refine decodeResult_of_header_ne ?_
    rw [hg, ← hhead]
    simpa [hlen] using hv

/-- Settles O28: the header check comes first; the checksum of zero bytes is a zero byte. -/
theorem zeroFrameRejected : Obligations.ZeroFrameRejected := by
  intro f s poly hf hhead
  refine ⟨exec_decodeFrame_of_result (decodeResult_of_header_ne ?_), fun hc => ?_⟩
  · rw [hf]
    exact hhead.symm
  · rw [frameChecksum, hc, hf, checksum_crc8_zero, List.take_replicate, crcFold_replicate_zero]
    rfl

end Sys2Proof.Machine

/-! The sweep assembler of 42_sweep.md: one point on the lists of points held and emitted (R130 to
R134), batches (R135), `TAKE_SWEEP` (R136), `SWEEP_INVALIDATE` (R137) and the runs of R138. -/

namespace Sys2Proof

/-- A point with an angle in range is a RangePoint (R66). -/
theorem Point.wellFormed_eq_true {p : Point} (h : p.angleCd.toNat < 36000) :
    p.wellFormed = true :=
  decide_eq_true h

theorem forall_wellFormed {ps : List Point} (h : ∀ p ∈ ps, p.angleCd.toNat < 36000) :
    ∀ p ∈ ps, p.wellFormed = true :=
  fun p hp => Point.wellFormed_eq_true (h p hp)

end Sys2Proof

namespace Sys2Proof.Machine

variable {s t : State} {p : Point} {k : Nat}

/-! `SWEEP_INVALIDATE` and `TAKE_SWEEP`. -/

/-- Settles O32: the operation clears the count and the detector and reads nothing. -/
theorem sweepInvalidateEmptiesAssembler : Obligations.SweepInvalidateEmptiesAssembler :=
  ⟨decode_of_encode rfl, fun _ => Effect.sweepInvalidated.exec_eq⟩

/-- With a Sweep ready and its entries written, the take reports its points (R136). -/
theorem exec_takeSweep_of_ready (hr : s.sweepReady = true) (hn : s.swOutCount ≤ s.cfg.fifoDepth)
    (hf : Memory.filled s.swOut s.swOutCount) :
    exec .takeSweep s = .next ((s.setSweepReady false).pushRes (.sweep s.emittedSweep)) := by
  obtain ⟨es, hes, -, hpoints⟩ :=
    readCells_points .swout s.cfg.fifoDepth s.swOut s.swOutCount hn hf
  rw [State.emittedSweep, ← hpoints]
  exact (Effect.sweepTaken es hr hes).exec_eq

/-- Settles O31: the flag decides, and the cells read hold the emitted points. -/
theorem takeSweepReturnsEmittedSweep : Obligations.TakeSweepReturnsEmittedSweep :=
  ⟨decode_of_encode rfl, fun _ => ⟨exec_takeSweep_of_not_ready, exec_takeSweep_of_ready⟩⟩

/-! `ADD_POINT`: the conditions of R130 and R132, and the points held after its append. -/

/-- R130: the relative angle is the residue itself, which is not negative. -/
theorem rel_cast (c : Config) (a : Half) :
    (rel c a : Int) = ((a.toNat : Int) - (c.spanStart : Int)) % 36000 :=
  Int.toNat_of_nonneg (Int.emod_nonneg _ (by decide))

theorem inWindow_iff {c : Config} : inWindow c p = true ↔ rel c p.angleCd < c.spanWidth :=
  decide_eq_true_iff

theorem closesSweep_iff : closesSweep p s = true ↔
    s.swLastValid = true ∧ rel s.cfg p.angleCd < s.swLastRel.toNat ∧ 0 < s.swCount := by
  simp only [closesSweep, wraps, Bool.and_eq_true, decide_eq_true_eq, and_assoc]

/-- An empty buffer is never closed by a wrap (R131 (b)). -/
theorem closesSweep_of_empty (h : s.swCount = 0) (p : Point) : closesSweep p s = false := by
  rw [Bool.eq_false_iff, Ne, closesSweep_iff]
  omega

theorem baseOf_of_not_closes (h : closesSweep p s = false) : baseOf p s = s.held := by
  simp [baseOf, h]

theorem baseOf_of_closes (h : closesSweep p s = true) : baseOf p s = [] := if_pos h

/-- The append adds the point if it is in the window (R133). -/
theorem nowOf_eq (p : Point) (s : State) :
    nowOf p s = baseOf p s ++ [p].filter (inWindow s.cfg) := by
  cases h : inWindow s.cfg p <;> simp [nowOf, h]

/-- Without a closing wrap the point joins those held (R131). -/
theorem nowOf_of_not_closes (h : closesSweep p s = false) :
    nowOf p s = s.held ++ [p].filter (inWindow s.cfg) := by
  rw [nowOf_eq, baseOf_of_not_closes h]

theorem nowOf_of_closes (h : closesSweep p s = true) :
    nowOf p s = [p].filter (inWindow s.cfg) := by
  rw [nowOf_eq, baseOf_of_closes h, List.nil_append]

theorem emittedSweep_congr (hout : t.swOut = s.swOut) (hcount : t.swOutCount = s.swOutCount) :
    t.emittedSweep = s.emittedSweep := by
  simp only [State.emittedSweep, hout, hcount]

theorem exec_addPoint_of_offerPoint (hp : p.wellFormed = true) (h : offerPoint p s = .ok (t, k)) :
    exec (.addPoint p) s = .next (t.pushRes (.emitted k)) :=
  (Effect.pointOffered p t k hp h).exec_eq

/-- Settles O29: the three outcomes are those of offering a point, in the model's own terms. -/
theorem addPointOnPointLists : Obligations.AddPointOnPointLists := by
  obtain ⟨-, hillegal, -⟩ := illegalCommandsIgnored
  refine ⟨fun _ _ _ _ _ => decode_cmd_eq_instr_iff.mpr rfl, fun p s => hillegal s p, ?_⟩
  intro p s r wrapped base now hp hn hf hr hwrap hbase hnow
  obtain rfl : r = rel s.cfg p.angleCd :=
    Int.ofNat_inj.mp (hr.trans (rel_cast s.cfg p.angleCd).symm)
  obtain rfl : wrapped = closesSweep p s := Bool.eq_iff_iff.mpr (hwrap.trans closesSweep_iff.symm)
  obtain rfl : base = baseOf p s := hbase
  obtain rfl : now = nowOf p s := by simp only [hnow, nowOf, inWindow_iff]
  obtain ⟨t, k, h, ho⟩ := offerPoint_ok p s hn hf
  refine ⟨t.pushRes (.emitted k), k, exec_addPoint_of_offerPoint (Point.wellFormed_eq_true hp) h,
    congrArg (·.pushRes (.emitted k)) ho.shape, fun a => ?_, ho.full, ho.closed, ho.kept⟩
  simpa only [pushRes_swBuf, inWindow_iff] using ho.cell a

/-! Runs of `ADD_POINT`s beside `offerPoints` (R135). -/

/-- `s` with other words carried by `RES`. -/
def State.withRes (s : State) (rs : List Result) : State := { s with resOut := rs }

section WithRes

variable (s : State) (rs : List Result)

@[simp] theorem withRes_cfg : (s.withRes rs).cfg = s.cfg := rfl
@[simp] theorem withRes_swBuf : (s.withRes rs).swBuf = s.swBuf := rfl
@[simp] theorem withRes_swCount : (s.withRes rs).swCount = s.swCount := rfl
@[simp] theorem withRes_swOut : (s.withRes rs).swOut = s.swOut := rfl

theorem closesSweep_withRes (p : Point) : closesSweep p (s.withRes rs) = closesSweep p s := rfl

theorem track_withRes (r : Nat) : (s.withRes rs).track r = (s.track r).withRes rs := rfl

/-- An answer of the assembler with other words carried by `RES`. -/
def sweepWithRes (r : Except Fault (State × Nat)) : Except Fault (State × Nat) :=
  r.map (Prod.map (·.withRes rs) id)

theorem emit_withRes : emit (s.withRes rs) = (emit s).map (·.withRes rs) := by
  simp only [emit, withRes_cfg, withRes_swBuf, withRes_swCount, withRes_swOut]
  cases readCells .swbuf s.cfg.fifoDepth s.swBuf 0 s.swCount with
  | error e => rfl
  | ok es =>
    dsimp only
    cases writeCells .swout s.cfg.fifoDepth s.swOut 0 es <;> rfl

theorem closeOnWrap_withRes (p : Point) :
    closeOnWrap p (s.withRes rs) = sweepWithRes rs (closeOnWrap p s) := by
  rw [closeOnWrap, closeOnWrap, closesSweep_withRes, emit_withRes]
  split
  · cases emit s <;> rfl
  · rfl

theorem emitIfFull_withRes : emitIfFull (s.withRes rs) = sweepWithRes rs (emitIfFull s) := by
  rw [emitIfFull, emitIfFull, withRes_swCount, withRes_cfg, emit_withRes]
  split
  · cases emit s <;> rfl
  · rfl

theorem appendPoint_withRes (p : Point) :
    appendPoint p (s.withRes rs) = sweepWithRes rs (appendPoint p s) := by
  rw [appendPoint, appendPoint, withRes_cfg, withRes_swBuf, withRes_swCount]
  split
  · cases writeCells .swbuf s.cfg.fifoDepth s.swBuf s.swCount [toEntry p] with
    | error e => rfl
    | ok m => exact emitIfFull_withRes (s.setBuffer m (s.swCount + 1)) rs
  · rfl

/-- What `RES` has carried is no matter to the assembler. -/
theorem offerPoint_withRes (p : Point) :
    offerPoint p (s.withRes rs) = sweepWithRes rs (offerPoint p s) := by
  rw [offerPoint, offerPoint, closeOnWrap_withRes]
  cases closeOnWrap p s with
  | error e => rfl
  | ok x =>
    simp only [sweepWithRes, Except.map, Prod.map, withRes_cfg, track_withRes, appendPoint_withRes]
    cases appendPoint p (x.1.track (rel s.cfg p.angleCd)) <;> rfl

end WithRes

variable {ps : List Point}

theorem execAll_addPoints_withRes (hps : ∀ p ∈ ps, p.wellFormed = true)
    (h : offerPoints ps s = .ok (t, k)) (rs : List Result) :
    ∃ ks : List Nat, ks.length = ps.length ∧ ks.sum = k ∧
      execAll (ps.map .addPoint) (s.withRes rs) = .next (t.withRes (rs ++ ks.map .emitted)) := by
  induction ps generalizing s k rs with
  | nil =>
    cases h
    exact ⟨[], rfl, rfl, by simp [execAll]⟩
  | cons p ps ih =>
    obtain ⟨hp, hps⟩ := List.forall_mem_cons.mp hps
    cases h1 : offerPoint p s with
    | error e => simp [offerPoints, h1] at h
    | ok x =>
      cases h2 : offerPoints ps x.1 with
      | error e => simp [offerPoints, h1, h2] at h
      | ok y =>
        simp only [offerPoints, h1, h2, Except.ok.injEq, Prod.mk.injEq] at h
        obtain ⟨rfl, rfl⟩ := h
        have hadd := exec_addPoint_of_offerPoint hp
          ((offerPoint_withRes s rs p).trans (congrArg (sweepWithRes rs) h1))
        obtain ⟨ks, hl, hsum, hrun⟩ := ih hps h2 (rs ++ [.emitted x.2])
        refine ⟨x.2 :: ks, by simp [hl], by simp [hsum], (execAll_cons hadd _).trans ?_⟩
        rw [List.map_cons, List.append_cons]
        exact hrun

/-- Points offered one after the other are `ADD_POINT`s one after the other, whose results are added
up (R135). -/
theorem execAll_addPoints (hps : ∀ p ∈ ps, p.wellFormed = true)
    (h : offerPoints ps s = .ok (t, k)) :
    ∃ ks : List Nat, ks.length = ps.length ∧ ks.sum = k ∧
      execAll (ps.map .addPoint) s = .next (t.withRes (s.resOut ++ ks.map .emitted)) :=
  execAll_addPoints_withRes hps h s.resOut

/-- The assembler can take a point in: there is room for it, and the accumulated entries have values
(R17, R18). -/
structure State.Accepts (s : State) : Prop where
  room : s.swCount < s.cfg.nTarget
  filled : Memory.filled s.swBuf s.swCount

theorem OfferSpec.cfg_eq (ho : OfferSpec p s t k) : t.cfg = s.cfg := by
  rw [ho.shape]

theorem OfferSpec.accepts (ho : OfferSpec p s t k) : t.Accepts :=
  ⟨ho.cfg_eq.symm ▸ ho.countLt, ho.bufFilled⟩

theorem State.Accepts.offerPoints_total (hs : s.Accepts) (ps : List Point) :
    ∃ t k, offerPoints ps s = .ok (t, k) := by
  induction ps generalizing s with
  | nil => exact ⟨s, 0, rfl⟩
  | cons p ps ih =>
    obtain ⟨t, k, ht, ho⟩ := offerPoint_ok p s hs.room hs.filled
    obtain ⟨u, j, hu⟩ := ih ho.accepts
    exact ⟨u, k + j, by simp only [offerPoints, ht, hu]⟩

/-- Settles O30: both runs offer the same points; the batch reports the sum. -/
theorem addBatchIsTwelveAddPoints : Obligations.AddBatchIsTwelveAddPoints := by
  obtain ⟨-, -, hillegal⟩ := illegalCommandsIgnored
  refine ⟨fun b => decode_of_encode rfl, fun b s ⟨p, hp, ha⟩ => hillegal s b p hp ha, ?_⟩
  intro b s hlegal hn hf
  have hps := forall_wellFormed hlegal
  obtain ⟨t, k, ht⟩ := State.Accepts.offerPoints_total ⟨hn, hf⟩ b.points
  obtain ⟨ks, hl, rfl, hrun⟩ := execAll_addPoints hps ht
  refine ⟨_, ks, hrun, hl.trans b.len, rfl, ?_⟩
  rw [(Effect.batchOffered b t _ hps ht).exec_eq, ← (offerPoints_sweepFrame ht).resOut_eq]
  rfl

/-! No point is lost (R138 (e)). -/

/-- One point offered loses nothing: the points held before and the point, if in the window, are the
points of the Sweep emitted, if one is, followed by those still held (R133, R134). -/
theorem OfferSpec.emitted_or_kept (ho : OfferSpec p s t k) (hn : s.swCount < s.cfg.nTarget) :
    (t.sweepReady = true ∧
        t.emittedSweep ++ t.held = s.held ++ [p].filter (inWindow s.cfg)) ∨
      (t.sweepReady = s.sweepReady ∧ t.emittedSweep = s.emittedSweep ∧
        t.held = s.held ++ [p].filter (inWindow s.cfg)) := by
  cases hc : closesSweep p s with
  | false =>
    rw [← nowOf_of_not_closes hc]
    by_cases hfull : (nowOf p s).length = s.cfg.nTarget
    · obtain ⟨-, hheld, he, hr, -⟩ := ho.full hfull
      exact .inl ⟨hr, by rw [hheld, he, List.append_nil]⟩
    · obtain ⟨-, hheld, hout, hcount, hr⟩ := ho.kept hfull hc
      exact .inr ⟨hr, emittedSweep_congr hout hcount, hheld⟩
  | true =>
    -- the wrap found a point held below `N_TARGET`, so one point alone does not complete the count
    have hfull : (nowOf p s).length ≠ s.cfg.nTarget := by
      obtain ⟨-, -, hpos⟩ := closesSweep_iff.mp hc
      have hle := List.length_filter_le (inWindow s.cfg) [p]
      rw [List.length_singleton] at hle
      rw [nowOf_of_closes hc]
      omega
    obtain ⟨-, hheld, he, hr, -⟩ := ho.closed hfull hc
    exact .inl ⟨hr, by rw [he, hheld, nowOf_of_closes hc]⟩

/-- From `s` to `t` the points `qs` came in and the results `out` went out: the points taken and
those still held are those held before and `qs`, in order; a Sweep that was ready comes first or was
replaced. -/
def Conserves (s t : State) (out : List Result) (qs : List Point) : Prop :=
  ∃ older, (older = [] ∨ (s.sweepReady = true ∧ older = s.emittedSweep)) ∧
    out.flatMap Result.sweepPoints ++ t.held = older ++ s.held ++ qs

theorem Conserves.refl (s : State) : Conserves s s [] [] := ⟨[], .inl rfl, by simp⟩

theorem Conserves.trans {u : State} {out out' : List Result} {qs qs' : List Point}
    (h : Conserves s t out qs) (hr : t.sweepReady = false) (h' : Conserves t u out' qs') :
    Conserves s u (out ++ out') (qs ++ qs') := by
  obtain ⟨older, hold, he⟩ := h
  obtain ⟨older', hold', he'⟩ := h'
  obtain rfl : older' = [] := hold'.resolve_right (by simp [hr])
  refine ⟨older, hold, ?_⟩
  rw [List.flatMap_append, List.append_assoc, he', List.nil_append, ← List.append_assoc, he,
    List.append_assoc]

/-- From the invariant a take reports the points of the Sweep that is ready, if there is one. -/
theorem BlockInv.exec_takeSweep (hs : BlockInv s) :
    ∃ r, exec .takeSweep s = .next ((s.setSweepReady false).pushRes r) ∧
      r.sweepPoints = if s.sweepReady = true then s.emittedSweep else [] := by
  cases hr : s.sweepReady with
  | false =>
    refine ⟨.noSweep, ?_, rfl⟩
    rw [exec_takeSweep_of_not_ready hr, State.setSweepReady, ← hr]
  | true =>
    obtain ⟨-, -, -, -, hfifo, -⟩ := config_bounds s.cfg
    obtain ⟨-, hcount⟩ := hs.sweepCount hr
    exact ⟨.sweep s.emittedSweep,
      exec_takeSweep_of_ready hr (hcount.trans hfifo) (hs.sweepFilled hr), rfl⟩

/-- One point and a take lose nothing. -/
theorem BlockInv.addPoint_takeSweep (hs : BlockInv s) (hp : p.wellFormed = true) :
    ∃ t out, execAll [.addPoint p, .takeSweep] s = .next t ∧ t.resOut = s.resOut ++ out ∧
      BlockInv t ∧ t.cfg = s.cfg ∧ t.sweepReady = false ∧
      Conserves s t out ([p].filter (inWindow s.cfg)) := by
  obtain ⟨u, k, hu, ho⟩ := offerPoint_ok p s hs.countLt hs.bufFilled
  have hui : BlockInv (u.pushRes (.emitted k)) := (ho.blockInv hs hp).pushRes _
  obtain ⟨r, hr, hpoints⟩ := hui.exec_takeSweep
  refine ⟨_, [.emitted k, r], (execAll_cons (exec_addPoint_of_offerPoint hp hu) _).trans
    (execAll_cons hr []), ?_, hui.clearSweepReady.pushRes r, ho.cfg_eq, rfl, ?_⟩
  · simp [(offerPoint_sweepFrame hu).resOut_eq]
  · have hout : [Result.emitted k, r].flatMap Result.sweepPoints =
        if u.sweepReady = true then u.emittedSweep else [] :=
      (List.append_nil r.sweepPoints).trans hpoints
    rw [Conserves, hout]
    change ∃ older, _ ∧ _ ++ u.held = _
    rcases ho.emitted_or_kept hs.countLt with ⟨hready, he⟩ | ⟨hready, hsame, hheld⟩
    · exact ⟨[], .inl rfl, by rw [if_pos hready, he, List.nil_append]⟩
    · rw [hready, hsame, hheld, ← List.append_assoc]
      refine ⟨_, ?_, rfl⟩
      split
      · exact .inr ⟨‹_›, rfl⟩
      · exact .inl rfl

/-- A consumer that takes after every point loses nothing. -/
theorem BlockInv.conserves (hs : BlockInv s) (hps : ∀ p ∈ ps, p.wellFormed = true) :
    ∃ t out, execAll (ps.flatMap fun p => [.addPoint p, .takeSweep]) s = .next t ∧
      t.resOut = s.resOut ++ out ∧ Conserves s t out (ps.filter (inWindow s.cfg)) := by
  induction ps generalizing s with
  | nil => exact ⟨s, [], rfl, by simp, .refl s⟩
  | cons p ps ih =>
    obtain ⟨hp, hps⟩ := List.forall_mem_cons.mp hps
    obtain ⟨t, out, ht, hres, hti, hcfg, hr, hc⟩ := hs.addPoint_takeSweep hp
    obtain ⟨u, out', hu, hres', hc'⟩ := ih hti hps
    refine ⟨u, out ++ out', (execAll_append ht _).trans hu,
      by rw [hres', hres, List.append_assoc], ?_⟩
    rw [← List.singleton_append, List.filter_append]
    exact hc.trans hr (hcfg ▸ hc')

/-- Settles O34: each point and take conserves the points, and only before the first can a Sweep be
ready. -/
theorem noOfferedPointLost : Obligations.NoOfferedPointLost := by
  intro ps s hs hlegal
  obtain ⟨t, out, ht, hres, older, hold, he⟩ :=
    hs.conserves (forall_wellFormed hlegal)
  exact ⟨t, out, older, ht, hres, hold, he⟩

/-! One pass over the span (R138 (c)). -/

/-- After a point is offered, no point that lies no earlier in the turn is a wrap (R132). -/
theorem OfferSpec.not_closes {q : Point} (ho : OfferSpec p s t k)
    (hle : rel s.cfg p.angleCd ≤ rel s.cfg q.angleCd) : closesSweep q t = false := by
  have hlast : t.swLastRel.toNat = rel s.cfg p.angleCd := by
    rw [ho.shape]
    exact rel_toNat_ofNat s.cfg p.angleCd
  rw [Bool.eq_false_iff, Ne, closesSweep_iff, ho.cfg_eq, hlast]
  omega

/-- The points `ps` can follow each other, and the point offered last, without a wrap that closes a
Sweep. -/
structure InTurn (ps : List Point) (s : State) : Prop where
  sorted : ps.Pairwise fun p q => rel s.cfg p.angleCd ≤ rel s.cfg q.angleCd
  noWrap : ∀ p ∈ ps, closesSweep p s = false

theorem InTurn.offered (h : InTurn (p :: ps) s) (ho : OfferSpec p s t k) : InTurn ps t := by
  obtain ⟨hp, hps⟩ := List.pairwise_cons.mp h.sorted
  exact ⟨by rwa [ho.cfg_eq], fun q hq => ho.not_closes (hp q hq)⟩

/-- Points in turn that do not complete the count are all held, and no Sweep is emitted. -/
theorem State.Accepts.offerPoints_kept (hs : s.Accepts) (hin : InTurn ps s)
    (hlt : (s.held ++ ps.filter (inWindow s.cfg)).length < s.cfg.nTarget) :
    ∃ t, offerPoints ps s = .ok (t, 0) ∧ t.held = s.held ++ ps.filter (inWindow s.cfg) ∧
      t.emittedSweep = s.emittedSweep ∧ t.sweepReady = s.sweepReady ∧ t.cfg = s.cfg := by
  induction ps generalizing s with
  | nil => exact ⟨s, rfl, by simp⟩
  | cons p ps ih =>
    obtain ⟨t, k, ht, ho⟩ := offerPoint_ok p s hs.room hs.filled
    have hc := hin.noWrap p List.mem_cons_self
    have hnow := nowOf_of_not_closes hc
    rw [← List.singleton_append, List.filter_append, ← List.append_assoc, ← hnow] at hlt ⊢
    have hfull : (nowOf p s).length ≠ s.cfg.nTarget := by
      rw [List.length_append] at hlt
      omega
    obtain ⟨rfl, hheld, hout, hcount, hr⟩ := ho.kept hfull hc
    rw [← hheld, ← ho.cfg_eq] at hlt ⊢
    obtain ⟨u, hu, hheld', he', hr', hcfg'⟩ := ih ho.accepts (hin.offered ho) hlt
    refine ⟨u, by simp only [offerPoints, List.singleton_append, ht, hu], hheld',
      he'.trans (emittedSweep_congr hout hcount), hr'.trans hr, hcfg'⟩

/-- Points in turn that complete the count are, after those held, the one Sweep emitted. -/
theorem State.Accepts.offerPoints_completes (hs : s.Accepts) (hin : InTurn ps s)
    (hlen : (s.held ++ ps.filter (inWindow s.cfg)).length = s.cfg.nTarget) :
    ∃ t, offerPoints ps s = .ok (t, 1) ∧ t.held = [] ∧
      t.emittedSweep = s.held ++ ps.filter (inWindow s.cfg) ∧ t.sweepReady = true ∧
      t.cfg = s.cfg := by
  induction ps generalizing s with
  | nil =>
    rw [List.filter_nil, List.append_nil, held_length] at hlen
    exact absurd hlen (Nat.ne_of_lt hs.room)
  | cons p ps ih =>
    obtain ⟨t, k, ht, ho⟩ := offerPoint_ok p s hs.room hs.filled
    have hc := hin.noWrap p List.mem_cons_self
    have hnow := nowOf_of_not_closes hc
    rw [← List.singleton_append, List.filter_append, ← List.append_assoc, ← hnow] at hlen ⊢
    by_cases hfull : (nowOf p s).length = s.cfg.nTarget
    · -- the count is complete, so the points left are outside the window
      obtain ⟨rfl, hheld, he, hr, -⟩ := ho.full hfull
      have hrest : ps.filter (inWindow s.cfg) = [] := by
        rw [List.length_append, hfull] at hlen
        exact List.eq_nil_of_length_eq_zero (by omega)
      have hroom := ho.accepts.room
      obtain ⟨u, hu, hheld', he', hr', hcfg'⟩ := ho.accepts.offerPoints_kept (hin.offered ho)
        (by rw [ho.cfg_eq, hrest, hheld]; simpa [ho.cfg_eq] using Nat.zero_lt_of_lt hroom)
      rw [ho.cfg_eq, hrest, hheld] at hheld'
      refine ⟨u, by simp only [offerPoints, List.singleton_append, ht, hu], hheld', ?_,
        hr'.trans hr, hcfg'.trans ho.cfg_eq⟩
      rw [he', he, hrest, List.append_nil]
    · obtain ⟨rfl, hheld, -, -, -⟩ := ho.kept hfull hc
      rw [← hheld, ← ho.cfg_eq] at hlen ⊢
      obtain ⟨u, hu, hu'⟩ := ih ho.accepts (hin.offered ho) hlen
      exact ⟨u, by simp only [offerPoints, List.singleton_append, ht, hu], hu'⟩

/-- `qs` is one pass over the span (R138 (c)): RangePoints in non-decreasing relative angle,
`N_TARGET` of them in the window. -/
structure OnePass (c : Config) (qs : List Point) : Prop where
  legal : ∀ q ∈ qs, q.wellFormed = true
  sorted : qs.Pairwise fun p q => rel c p.angleCd ≤ rel c q.angleCd
  count : (qs.filter (inWindow c)).length = c.nTarget

/-- One pass from an empty buffer emits its points in the window as one Sweep and leaves the buffer
empty. -/
theorem OnePass.emits_one (hps : OnePass s.cfg ps) (h0 : s.swCount = 0) :
    ∃ (t : State) (ks : List Nat), execAll (ps.map .addPoint) s = .next t ∧
      t.resOut = s.resOut ++ ks.map .emitted ∧ ks.sum = 1 ∧ t.swCount = 0 ∧
      t.sweepReady = true ∧ t.emittedSweep = ps.filter (inWindow s.cfg) ∧ t.cfg = s.cfg := by
  obtain ⟨-, -, -, hn, -⟩ := config_bounds s.cfg
  have hs : s.Accepts := ⟨by omega, by rw [h0]; exact Memory.filled_zero _⟩
  have hheld : s.held = [] := List.eq_nil_of_length_eq_zero ((held_length s).trans h0)
  obtain ⟨t, ht, htheld, he, hr, hcfg⟩ := hs.offerPoints_completes
    ⟨hps.sorted, fun p _ => closesSweep_of_empty h0 p⟩ (by rw [hheld]; exact hps.count)
  obtain ⟨ks, -, hsum, hrun⟩ := execAll_addPoints hps.legal ht
  rw [hheld, List.nil_append] at he
  have ht0 : t.swCount = 0 := by rw [← held_length, htheld, List.length_nil]
  exact ⟨_, ks, hrun, rfl, hsum, ht0, hr, he, hcfg⟩

/-- Settles O33: the second pass is one pass from the empty buffer the first one leaves. -/
theorem onePassEmitsOneSweep : Obligations.OnePassEmitsOneSweep := by
  refine ⟨fun ps s hlegal hsort hcount h0 => ?_, fun ps qs s hlegal hps hqs hpn hqn h0 => ?_⟩
  · have hpass : OnePass s.cfg ps := ⟨forall_wellFormed hlegal, hsort, hcount⟩
    obtain ⟨t, ks, ht, hres, hsum, ht0, hr, he, -⟩ := hpass.emits_one h0
    have hout : t.swOutCount = s.cfg.nTarget := by rw [← emittedSweep_length, he, hpass.count]
    exact ⟨t, ks, ht, hres, hsum, ht0, hr, hout, he⟩
  · obtain ⟨hlp, hlq⟩ := List.forall_mem_append.mp hlegal
    have hpass : OnePass s.cfg ps := ⟨forall_wellFormed hlp, hps, hpn⟩
    have hpass' : OnePass s.cfg qs := ⟨forall_wellFormed hlq, hqs, hqn⟩
    obtain ⟨t, js, ht, hres, hsum, ht0, -, he, hcfg⟩ := hpass.emits_one h0
    rw [← hcfg] at hpass'
    obtain ⟨u, ks, hu, hres', hsum', hu0, hr', he', -⟩ := hpass'.emits_one ht0
    rw [hcfg] at he'
    have hout : u.swOutCount = s.cfg.nTarget := by rw [← emittedSweep_length, he', ← hqn]; rfl
    exact ⟨t, u, js, ks, ht, hu, hres, hsum, hres', hsum', hu0, hr', hout, he, he'⟩

end Sys2Proof.Machine

/-! The actuation safety layer of 43_safety.md: the motion commands (R151 to R153), the latch
operations (R154 to R158), the state machine of the latch (R150), the driver calls (R159) and the
arithmetic (R160). -/

namespace Sys2Proof.Machine

variable {s t : State}

/-! The clamp and the trim (R160). -/

theorem clamp_eq_self {v lo hi : Int} (hlo : lo ≤ v) (hhi : v ≤ hi) : clamp v lo hi = v := by
  rw [clamp, min_eq_left hhi, max_eq_right hlo]

theorem clamp_eq_lo {v lo hi : Int} (hv : v ≤ lo) : clamp v lo hi = lo :=
  max_eq_left ((min_le_left v hi).trans hv)

theorem clamp_eq_hi {v lo hi : Int} (h : lo ≤ hi) (hv : hi ≤ v) : clamp v lo hi = hi := by
  rw [clamp, min_eq_right hv, max_eq_right h]

theorem clamp_mono {v w : Int} (lo hi : Int) (h : v ≤ w) : clamp v lo hi ≤ clamp w lo hi :=
  max_le_max le_rfl (min_le_min h le_rfl)

/-- R153: the trim moves the clamped angle by at most the range of `STEER_BIAS`. -/
theorem trimmed_bounds (c : Config) (angle : Half) :
    -65535 ≤ trimmed c angle ∧ trimmed c angle ≤ 65534 := by
  have hc := config_bounds c
  have hclamp := clamp_bounds (v := angle.toInt) (lo := -c.maxSteer) (hi := c.maxSteer) (by omega)
  simp only [trimmed]
  omega

/-- Settles O46: a clamped value is within the bounds, so a second clamp leaves it. -/
theorem clampAndTrimArithmetic : Obligations.ClampAndTrimArithmetic := by
  refine ⟨fun v lo hi h => ⟨?_, clamp_eq_self, fun hv => clamp_eq_lo hv.le,
    fun hv => clamp_eq_hi h hv.le⟩, fun v w lo hi _ => clamp_mono lo hi, trimmed_bounds⟩
  obtain ⟨hlo, hhi⟩ := clamp_bounds (v := v) h
  exact clamp_eq_self hlo hhi

/-! The motion commands. -/

/-- Settles O35: the latch decides, and the duty is the clamped operand. -/
theorem setForwardClampsOrNeutral : Obligations.SetForwardClampsOrNeutral :=
  ⟨fun _ _ => decode_cmd_eq_instr_iff.mpr rfl,
    fun v _ => ⟨fun h => (Effect.forwardStopped v h).exec_eq,
      fun h => (Effect.forwardDriven v h).exec_eq⟩⟩

/-- Settles O36: as for `SET_FORWARD`, with the other motor call. -/
theorem setReverseClampsOrNeutral : Obligations.SetReverseClampsOrNeutral :=
  ⟨fun _ _ => decode_cmd_eq_instr_iff.mpr rfl,
    fun v _ => ⟨fun h => (Effect.reverseStopped v h).exec_eq,
      fun h => (Effect.reverseDriven v h).exec_eq⟩⟩

/-- Settles O37: the latch decides, and the position is the map of the trimmed angle. -/
theorem setSteeringClampsTrimsOrFrozen : Obligations.SetSteeringClampsTrimsOrFrozen := by
  refine ⟨fun _ _ => decode_cmd_eq_instr_iff.mpr rfl, fun a s q hq => ?_⟩
  obtain rfl : q = steerPos s.cfg a := hq
  exact ⟨fun h => (Effect.steeringFrozen a h).exec_eq, fun h => (Effect.steered a h).exec_eq⟩

/-! The latch operations. -/

/-- The two calls of R154 as one list, steering first. -/
theorem neutralise_eq_calls (s : State) : neutralise s =
    { s with
      actServo := .pos (neutralPos s.cfg), actMotor := .neutral
      actOut := s.actOut ++ [.write (neutralPos s.cfg), .setNeutral] } := by
  rw [neutralise_eq, List.append_assoc, List.singleton_append]

/-- The body of R157 and R158 with its calls as one list. -/
theorem toggleLatch_eq_calls (s : State) : toggleLatch s =
    { s with
      estopped := !s.estopped, actServo := .pos (neutralPos s.cfg), actMotor := .neutral
      actOut := s.actOut ++ [.write (neutralPos s.cfg), .setNeutral] } := by
  rw [toggleLatch, neutralise_eq_calls]
  rfl

theorem exec_togglePause (s : State) :
    exec .togglePause s = .next ((toggleLatch s).pushRes .done) :=
  Effect.toggled.exec_eq

theorem exec_estopEdge (s : State) : exec .estopEdge s = .next (toggleLatch s) :=
  Effect.edge.exec_eq

/-- Settles O38: `PAUSE` reads no latch, and `neutralise` makes its two calls. -/
theorem pauseNeutralisesAndLatches : Obligations.PauseNeutralisesAndLatches := by
  refine ⟨decode_of_encode rfl, fun s q hq => ?_⟩
  obtain rfl : q = neutralPos s.cfg := hq
  rw [Effect.paused.exec_eq, neutralise_eq_calls]
  rfl

/-- Settles O39: the operation writes the latch and the result only. -/
theorem unpauseClearsLatchOnly : Obligations.UnpauseClearsLatchOnly :=
  ⟨decode_of_encode rfl, fun _ => Effect.unpaused.exec_eq⟩

/-- Settles O40: the second operation complements the latch that the first one left. -/
theorem togglePauseNeutralisesAndFlips : Obligations.TogglePauseNeutralisesAndFlips := by
  refine ⟨decode_of_encode rfl, fun s q hq => ?_⟩
  obtain rfl : q = neutralPos s.cfg := hq
  constructor
  · rw [exec_togglePause, toggleLatch_eq_calls]
    rfl
  · rw [execAll_cons (exec_togglePause s), execAll_cons (exec_togglePause _), execAll]
    simp [toggleLatch_eq_calls, State.pushRes]

/-- A run of edges is the body of R158, iterated. -/
theorem execAll_replicate_estopEdge (n : Nat) (s : State) :
    execAll (List.replicate n .estopEdge) s = .next (toggleLatch^[n] s) := by
  induction n generalizing s with
  | zero => rfl
  | succ n ih =>
    rw [List.replicate_succ, execAll_cons (exec_estopEdge s), ih, Function.iterate_succ_apply]

/-- Every edge complements the latch, whatever else it does. -/
theorem iterate_toggleLatch_estopped (n : Nat) (s : State) :
    (toggleLatch^[n] s).estopped = not^[n] s.estopped :=
  Function.Semiconj.iterate_right (f := State.estopped) (fun _ => rfl) n s

/-- Settles O41: the two operations share their body, and complementing is an involution. -/
theorem estopEdgeTogglesWithoutResult : Obligations.EstopEdgeTogglesWithoutResult := by
  refine ⟨decode_of_encode rfl, fun s q hq => ⟨?_, fun t ht => ?_, fun n => ?_⟩⟩
  · obtain rfl : q = neutralPos s.cfg := hq
    rw [exec_estopEdge, toggleLatch_eq_calls]
  · obtain rfl : toggleLatch s = t := Host.Outcome.next.inj ht
    exact exec_togglePause s
  · refine ⟨_, execAll_replicate_estopEdge (2 * n) s, ?_⟩
    rw [iterate_toggleLatch_estopped, Bool.involutive_not.iterate_two_mul]
    rfl

/-! The state machine of the latch (R150). -/

/-- An operation with an effect in each of the two states of the latch always completes. -/
theorem exec_total_of_latch {i : Instr} (hstop : s.estopped = true → ∃ t, Effect s i t)
    (hrun : s.estopped = false → ∃ t, Effect s i t) : ∃ t, exec i s = .next t := by
  cases h : s.estopped with
  | true => exact (hstop h).imp fun _ => Effect.exec_eq
  | false => exact (hrun h).imp fun _ => Effect.exec_eq

/-- Settles O42: R10's table lets the four latch operations alone write `estopped`. -/
theorem latchStateMachine : Obligations.LatchStateMachine := by
  refine ⟨fun _ => rfl, fun i s t h => ?_, fun i s hi => ?_⟩
  · have hwritten : t.estopped = (State.written i s t).estopped :=
      congrArg State.estopped (exec_effect h).eq_written
    cases exec_effect h with
    | paused | unpaused | toggled | edge => rfl
    | _ => exact hwritten
  · rcases hi with ⟨v, rfl⟩ | ⟨v, rfl⟩ | ⟨a, rfl⟩ | rfl | rfl | rfl | rfl
    · exact exec_total_of_latch (fun h => ⟨_, .forwardStopped v h⟩) fun h => ⟨_, .forwardDriven v h⟩
    · exact exec_total_of_latch (fun h => ⟨_, .reverseStopped v h⟩) fun h => ⟨_, .reverseDriven v h⟩
    · exact exec_total_of_latch (fun h => ⟨_, .steeringFrozen a h⟩) fun h => ⟨_, .steered a h⟩
    · exact ⟨_, Effect.paused.exec_eq⟩
    · exact ⟨_, Effect.unpaused.exec_eq⟩
    · exact ⟨_, exec_togglePause s⟩
    · exact ⟨_, exec_estopEdge s⟩

/-- The latch stays set under every operation that cannot clear it. -/
theorem exec_keeps_estopped {i : Instr} (h : exec i s = .next t)
    (hi : i ≠ .unpause ∧ i ≠ .togglePause ∧ i ≠ .estopEdge) (hs : s.estopped = true) :
    t.estopped = true := by
  obtain ⟨hunpause, htoggle, hedge⟩ := hi
  obtain ⟨-, hlatch, -⟩ := latchStateMachine
  rw [hlatch i s t h]
  split
  · rfl
  · exact absurd rfl hunpause
  · exact absurd rfl htoggle
  · exact absurd rfl hedge
  · exact hs

/-! The driver calls (R159). -/

/-- The calls one operation can make from `s` to `t` (`Effect.gateCalls`): none, and then the
latch is not set anew; one within the limits, neutral while estopped, with the latch as it was; or
the two of `neutralise`. -/
inductive GateCalls (s t : State) : List ActCall → Prop where
  | silent : (t.estopped = true → s.estopped = true) → GateCalls s t []
  | single (a : ActCall) : t.estopped = s.estopped → callOk s.cfg a →
      (s.estopped = true → a = .setNeutral) → GateCalls s t [a]
  | neutralised : t.actMotor = .neutral →
      GateCalls s t [.write (neutralPos s.cfg), .setNeutral]

/-- The calls of every operation, read off its effect. -/
theorem Effect.gateCalls {i : Instr} (h : Effect s i t) :
    ∃ calls, t.actOut = s.actOut ++ calls ∧ GateCalls s t calls := by
  have hout : t.actOut = (State.written i s t).actOut := congrArg State.actOut h.eq_written
  have hlatch : t.estopped = (State.written i s t).estopped :=
    congrArg State.estopped h.eq_written
  cases h with
  | forwardStopped | reverseStopped => exact ⟨_, rfl, .single _ rfl trivial fun _ => rfl⟩
  | forwardDriven v hr | reverseDriven v hr =>
    exact ⟨_, rfl, .single _ rfl (duty_bounds s.cfg v) (by simp [hr])⟩
  | steered a hr => exact ⟨_, rfl, .single _ rfl (steerPos_ok s.cfg a) (by simp [hr])⟩
  | steeringFrozen => exact ⟨[], (List.append_nil _).symm, .silent id⟩
  | paused | toggled | edge => exact ⟨_, neutralise_actOut s, .neutralised rfl⟩
  | unpaused => exact ⟨[], (List.append_nil _).symm, .silent nofun⟩
  | _ => exact ⟨[], hout.trans (List.append_nil _).symm, .silent fun ht => hlatch.symm.trans ht⟩

section GateCalls

variable {calls : List ActCall}

/-- R159 (a). -/
theorem GateCalls.neutral (hc : GateCalls s t calls) (hs : s.estopped = true) :
    ∀ a ∈ calls, neutralCall s.cfg a := by
  cases hc with
  | silent => exact List.forall_mem_nil _
  | single a _ _ hstop => exact List.forall_mem_singleton.mpr (.inl (hstop hs))
  | neutralised =>
    exact List.forall_mem_cons.mpr ⟨.inr rfl, List.forall_mem_singleton.mpr (.inl rfl)⟩

/-- R159 (b). -/
theorem GateCalls.sets_neutral (hc : GateCalls s t calls) (hs : s.estopped = false)
    (ht : t.estopped = true) : .setNeutral ∈ calls ∧ t.actMotor = .neutral := by
  cases hc with
  | silent hl => exact absurd (hl ht) (by simp [hs])
  | single _ hl => exact absurd (hl.symm.trans ht) (by simp [hs])
  | neutralised hm => exact ⟨by simp, hm⟩

/-- R159 (c), (d), (e). -/
theorem GateCalls.ok (hc : GateCalls s t calls) : ∀ a ∈ calls, callOk s.cfg a := by
  cases hc with
  | silent => exact List.forall_mem_nil _
  | single a _ hok _ => exact List.forall_mem_singleton.mpr hok
  | neutralised =>
    exact List.forall_mem_cons.mpr ⟨neutralPos_ok s.cfg, List.forall_mem_singleton.mpr trivial⟩

/-- R159 (f). -/
theorem GateCalls.none_or_neutralised (hc : GateCalls s t calls) (hs : s.estopped = true)
    (ht : t.estopped = false) : calls = [] ∨ calls = [.write (neutralPos s.cfg), .setNeutral] := by
  cases hc with
  | silent => exact .inl rfl
  | single _ hl => exact absurd (hl.symm.trans ht) (by simp [hs])
  | neutralised => exact .inr rfl

end GateCalls

/-- Settles O43: each clause is one of the calls an operation can make. -/
theorem gateCallsAreSafe : Obligations.GateCallsAreSafe := by
  intro i s t h
  obtain ⟨calls, hout, hc⟩ := (exec_effect h).gateCalls
  exact ⟨calls, hout, hc.neutral, hc.sets_neutral, hc.ok, hc.none_or_neutralised⟩

theorem execAll_cons_eq_next_iff {i : Instr} {is : List Instr} {u : State} :
    execAll (i :: is) s = .next u ↔ ∃ t, exec i s = .next t ∧ execAll is t = .next u := by
  cases h : exec i s <;> simp [execAll, h]

/-- Settles O44, by induction on the run: its first operation keeps the latch and the configuration
record, and makes neutral calls. -/
theorem estoppedRunStaysNeutral : Obligations.EstoppedRunStaysNeutral := by
  intro is
  induction is with
  | nil =>
    intro s t _ hs h
    cases h
    exact ⟨hs, [], (List.append_nil _).symm, List.forall_mem_nil _⟩
  | cons i is ih =>
    intro s u hall hs h
    obtain ⟨hi, hall⟩ := List.forall_mem_cons.mp hall
    obtain ⟨t, hit, hrun⟩ := execAll_cons_eq_next_iff.mp h
    obtain ⟨hcfg, -⟩ := elementsWrittenOnlyByTheirOperations i s t hit
    obtain ⟨first, hfirst, hc⟩ := (exec_effect hit).gateCalls
    obtain ⟨hu, rest, hrest, hneutral⟩ := ih t u hall (exec_keeps_estopped hit hi hs) hrun
    rw [hcfg] at hneutral
    refine ⟨hu, first ++ rest, ?_, List.forall_mem_append.mpr ⟨hc.neutral hs, hneutral⟩⟩
    rw [hrest, hfirst, List.append_assoc]

end Sys2Proof.Machine

/-! The exceptions of 60_exceptions.md: the agents and their ports (R180), the independence of the
producer and the estop trigger (R183), the estop race (R175 (d)), and that every operation completes
and no step faults (R173). -/

namespace Sys2Proof

variable {op : Byte} {p : List Byte} {i j : Instr}

/-! The operation each format of a payload makes (R72). -/

theorem eq_of_operandC0 (h : operandC0 i p = some j) : j = i := by
  unfold operandC0 at h
  split at h <;> cases h
  rfl

theorem eq_of_operandC2 {mk : Half → Instr} (h : operandC2 mk p = some i) : ∃ v, i = mk v := by
  unfold operandC2 at h
  split at h <;> cases h
  exact ⟨_, rfl⟩

theorem eq_of_operandC4 (h : operandC4 p = some i) : ∃ v, i = .beginRx v := by
  unfold operandC4 at h
  split at h <;> cases h
  exact ⟨_, rfl⟩

theorem eq_of_operandCP (h : operandCP p = some i) : ∃ q, i = .addPoint q := by
  unfold operandCP at h
  split at h <;> cases h
  exact ⟨_, rfl⟩

theorem eq_of_operandCF (h : operandCF p = some i) : ∃ f, i = .decodeFrame f := by
  unfold operandCF at h
  split at h <;> cases h
  exact ⟨_, rfl⟩

theorem eq_of_operandCB (h : operandCB p = some i) : ∃ b, i = .addBatch b := by
  unfold operandCB at h
  split at h
  · split at h <;> cases h
    exact ⟨_, rfl⟩
  · cases h

/-! Each operation arrives at the port of its agent (R180). -/

/-- The thirteen opcodes are operations of the consumer. -/
theorem assemble_port (h : assemble op p = some i) : i.port = .cmd := by
  rcases assemble_cases h with ⟨-, h⟩ | ⟨-, h⟩ | ⟨-, h⟩ | ⟨-, h⟩ | ⟨-, h⟩ | ⟨-, h⟩ | ⟨-, h⟩ | ⟨-, h⟩ |
    ⟨-, h⟩ | ⟨-, h⟩ | ⟨-, h⟩ | ⟨-, h⟩ | ⟨-, h⟩
  · obtain ⟨v, rfl⟩ := eq_of_operandC4 h; rfl
  · rw [eq_of_operandC0 h]; rfl
  · obtain ⟨f, rfl⟩ := eq_of_operandCF h; rfl
  · obtain ⟨b, rfl⟩ := eq_of_operandCB h; rfl
  · rw [eq_of_operandC0 h]; rfl
  · rw [eq_of_operandC0 h]; rfl
  · obtain ⟨q, rfl⟩ := eq_of_operandCP h; rfl
  · obtain ⟨v, rfl⟩ := eq_of_operandC2 h; rfl
  · obtain ⟨v, rfl⟩ := eq_of_operandC2 h; rfl
  · obtain ⟨v, rfl⟩ := eq_of_operandC2 h; rfl
  · rw [eq_of_operandC0 h]; rfl
  · rw [eq_of_operandC0 h]; rfl
  · rw [eq_of_operandC0 h]; rfl

theorem decodeRx_port (w : BitVec 9) : (decodeRx w).port = .rx := by
  unfold decodeRx
  split <;> rfl

theorem decodeEstop_port {w : BitVec 1} (h : decodeEstop w = .instr i) : i.port = .estop := by
  unfold decodeEstop at h
  split at h <;> cases h
  rfl

/-- A port word decodes only to operations of its own port. -/
theorem decode_port {w : PortWord} (h : decode w = .instr i) : i.port = w.port := by
  cases w with
  | rx w =>
    obtain rfl : decodeRx w = i := Decoded.instr.inj h
    exact decodeRx_port w
  | estop w => exact decodeEstop_port h
  | cmd bytes =>
    cases bytes with
    | nil => cases h
    | cons op p => exact assemble_port (decode_cmd_eq_instr_iff.mp h)

/-- The producer's operations (R70). -/
theorem Instr.port_eq_rx_iff : i.port = .rx ↔ (∃ d, i = .rxByte d) ∨ i = .rxError := by
  cases i <;> simp [Instr.port]

/-- The estop trigger's only operation (R70). -/
theorem Instr.port_eq_estop_iff : i.port = .estop ↔ i = .estopEdge := by
  cases i <;> simp [Instr.port]

/-- Settles O6: a word decodes to an operation of its own port, and each operation has one port. -/
theorem operationsOfEachPort : Obligations.OperationsOfEachPort := by
  refine ⟨fun w => ?_, fun w i h => Instr.port_eq_estop_iff.mp (decode_port h), fun bs i h => ?_⟩
  · exact (Instr.port_eq_rx_iff.mp (decodeRx_port w)).imp (.imp fun _ => congrArg Decoded.instr)
      (congrArg Decoded.instr)
  · have hport : i.port = .cmd := decode_port h
    refine ⟨fun d hi => ?_, fun hi => ?_, fun hi => ?_⟩ <;> rw [hi] at hport <;> cases hport

end Sys2Proof

namespace Sys2Proof.Machine

variable {s t : State}

/-! Every operation completes (R173). -/

/-- A byte has an effect in every phase of the receiver (R92). -/
theorem exists_effect_rxByte (d : Byte) (s : State) : ∃ t, Effect s (.rxByte d) t := by
  cases hp : s.rxPhase with
  | idle => exact ⟨_, .byteLost d hp⟩
  | probe => exact ⟨_, .byteProbed d hp⟩
  | frame =>
    by_cases hi : s.rxIdx.val = 46
    · exact ⟨_, .frameCompleted d hp hi⟩
    · exact ⟨_, .byteStored d hp hi⟩

/-- A transfer error has an effect in every phase of the receiver (R94). -/
theorem exists_effect_rxError (s : State) : ∃ t, Effect s .rxError t := by
  by_cases hp : s.rxPhase = .idle
  · exact ⟨_, .errorIgnored hp⟩
  · exact ⟨_, .errorRearmed hp⟩

theorem BlockInv.exists_effect_addPoint (hs : BlockInv s) (p : Point) :
    ∃ t, Effect s (.addPoint p) t := by
  cases hp : p.wellFormed with
  | false => exact ⟨_, .pointIllegal p hp⟩
  | true =>
    obtain ⟨t, k, ht, -⟩ := hs.offerPoint_total hp
    exact ⟨_, .pointOffered p t k hp ht⟩

/-- Settles O49: the takes, points and batches complete by the invariant, every other operation from
any state. -/
theorem everyOperationCompletes : Obligations.EveryOperationCompletes := by
  intro i s hs
  cases i with
  | rxByte d => exact hs.exec_total_of_effect (exists_effect_rxByte d s)
  | rxError => exact hs.exec_total_of_effect (exists_effect_rxError s)
  | addPoint p => exact hs.exec_total_of_effect (hs.exists_effect_addPoint p)
  | addBatch b => exact hs.exec_addBatch_total b
  | takeFrame => exact hs.exec_takeFrame_total
  | takeSweep => exact hs.exec_takeSweep_total
  | beginRx v => exact hs.exec_total_of_effect ⟨_, .begun v⟩
  | decodeFrame f => exact hs.exec_total_of_effect ⟨_, .decoded f⟩
  | sweepInvalidate => exact hs.exec_total_of_effect ⟨_, .sweepInvalidated⟩
  | setForward | setReverse | setSteering | pause | unpause | togglePause | estopEdge =>
    obtain ⟨-, -, hgate⟩ := latchStateMachine
    refine (hgate _ s ?_).imp fun t ht => ⟨ht, hs.of_effect (exec_effect ht)⟩
    simp

/-! A step (R47), by what the decoder says of the word accepted. -/

section Step

variable {w : PortWord} {ws : List PortWord}

theorem step_of_illegalOpcode {op : Byte} (hw : s.inbox = w :: ws)
    (hd : decode w = .illegalOpcode op) : step s = .next (illegalCommand (s.setInbox ws)) := by
  simp only [step, hw, hd]

theorem step_of_wrongLength {bytes : List Byte} (hw : s.inbox = w :: ws)
    (hd : decode w = .wrongLength bytes) : step s = .refused (.commandLength bytes) := by
  simp only [step, hw, hd]

theorem step_of_noEdge (hw : s.inbox = w :: ws) (hd : decode w = .noEdge) :
    step s = .refused .noEstopEdge := by
  simp only [step, hw, hd]

end Step

/-- Settles O50: the operation of the word accepted completes, an unknown opcode is ignored, and
any other word is refused. -/
theorem stepNeverFaults : Obligations.StepNeverFaults := by
  intro s hs
  cases hw : s.inbox with
  | nil => exact .inl ⟨s, by simp only [step, hw]⟩
  | cons w ws =>
    cases hd : decode w with
    | instr i =>
      obtain ⟨t, ht, -⟩ := everyOperationCompletes i _ (hs.setInbox ws)
      exact .inl ⟨t, (step_eq_exec hw hd).trans ht⟩
    | illegalOpcode op => exact .inl ⟨_, step_of_illegalOpcode hw hd⟩
    | wrongLength bytes => exact .inr ⟨w, ws, rfl, .inl ⟨bytes, hd, step_of_wrongLength hw hd⟩⟩
    | noEdge => exact .inr ⟨w, ws, rfl, .inr ⟨hd, step_of_noEdge hw hd⟩⟩

/-! The producer and the estop trigger (R183). -/

/-- A bank is no element of the safety layer. -/
theorem setBank_toggleLatch (s : State) (b : Bank) (m : List Host.Cell) :
    (toggleLatch s).setBank b m = toggleLatch (s.setBank b m) := by
  cases b <;> rfl

theorem storeByte_toggleLatch (d : Byte) (s : State) :
    storeByte d (toggleLatch s) = toggleLatch (storeByte d s) :=
  setBank_toggleLatch s s.rxWbank _

/-- What a producer's operation does before an edge, it does after it (R50). -/
theorem Effect.after_edge {i : Instr} (h : Effect s i t) (hi : i.port = .rx) :
    Effect (toggleLatch s) i (toggleLatch t) := by
  cases h with
  | byteLost d hp => exact .byteLost d hp
  | byteProbed d hp => exact .byteProbed d hp
  | byteStored d hp hidx =>
    have hstored := Effect.byteStored (s := toggleLatch s) d hp hidx
    rw [storeByte_toggleLatch] at hstored
    exact hstored
  | frameCompleted d hp hidx =>
    have hcompleted := Effect.frameCompleted (s := toggleLatch s) d hp hidx
    rw [storeByte_toggleLatch] at hcompleted
    exact hcompleted
  | errorIgnored hp => exact .errorIgnored hp
  | errorRearmed hp => exact .errorRearmed hp
  | _ => cases hi

/-- Settles O15: either order ends in the state the producer's operation leaves, with the latch
toggled. -/
theorem producerAndEstopCommute : Obligations.ProducerAndEstopCommute := by
  intro i s hi
  obtain ⟨t, ht⟩ : ∃ t, Effect s i t := by
    rcases hi with ⟨d, rfl⟩ | rfl
    · exact exists_effect_rxByte d s
    · exact exists_effect_rxError s
  have hfirst : execAll [i, .estopEdge] s = .next (toggleLatch t) := by
    rw [execAll_cons ht.exec_eq, execAll_cons (exec_estopEdge t), execAll]
  have hlast : execAll [.estopEdge, i] s = .next (toggleLatch t) := by
    rw [execAll_cons (exec_estopEdge s),
      execAll_cons (ht.after_edge (Instr.port_eq_rx_iff.mpr hi)).exec_eq, execAll]
  exact ⟨hfirst.trans hlast.symm, _, hfirst⟩

/-! The estop race (R175 (d)). -/

/-- The edge of a running block latches it (R158). -/
theorem toggleLatch_estopped_of_running (h : s.estopped = false) :
    (toggleLatch s).estopped = true :=
  congrArg not h

/-- Settles O45: before the edge a command makes its own call; after it steering is frozen and
forward is neutral. -/
theorem estopRaceEndsNeutral : Obligations.EstopRaceEndsNeutral := by
  intro angle power s q r v hrun hq hr hv
  obtain rfl : q = neutralPos s.cfg := hq
  obtain rfl : r = steerPos s.cfg angle := hr
  obtain rfl : v = duty s.cfg power := hv
  have hstop := toggleLatch_estopped_of_running hrun
  have hsteered := (Effect.steered angle hrun).exec_eq
  refine ⟨?_, ?_, ?_⟩
  · have hfrozen := (Effect.steeringFrozen angle hstop).exec_eq
    have hneutral :=
      (Effect.forwardStopped (s := (toggleLatch s).pushRes .done) power hstop).exec_eq
    rw [execAll_cons (exec_estopEdge s), execAll_cons hfrozen, execAll_cons hneutral, execAll,
      toggleLatch_eq_calls]
    simp [motorNeutral, State.driveMotor, State.pushRes, hrun]
  · have hneutral := (Effect.forwardStopped power (toggleLatch_estopped_of_running
      (s := (s.driveServo (steerPos s.cfg angle)).pushRes .done) hrun)).exec_eq
    rw [execAll_cons hsteered, execAll_cons (exec_estopEdge _), execAll_cons hneutral, execAll,
      toggleLatch_eq_calls]
    simp [motorNeutral, State.driveMotor, State.driveServo, State.pushRes, hrun]
  · have hdriven := (Effect.forwardDriven
      (s := (s.driveServo (steerPos s.cfg angle)).pushRes .done) power hrun).exec_eq
    rw [execAll_cons hsteered, execAll_cons hdriven, execAll_cons (exec_estopEdge _), execAll,
      toggleLatch_eq_calls]
    simp [State.driveMotor, State.driveServo, State.pushRes, hrun]

end Sys2Proof.Machine

/-! The model's own choices: where its memory faults arise (log entry 6), the words it refuses (log
entries 8 and 9), and a step with no word waiting (log entry 1). -/

namespace Sys2Proof

/-- A POINT is a RangePoint exactly when its angle is one R66 admits. -/
theorem Point.wellFormed_iff {p : Point} : p.wellFormed = true ↔ p.angleCd.toNat < 36000 :=
  decide_eq_true_iff

/-- A legal opcode with a payload that makes no operation is read as a word of the wrong length
(R71). -/
theorem decode_cmd_eq_wrongLength {op : Byte} {bs : List Byte} (hop : op ∈ opcodes)
    (hno : ¬ ∃ i, decode (.cmd (op :: bs)) = .instr i) :
    decode (.cmd (op :: bs)) = .wrongLength (op :: bs) := by
  simp only [decode_cmd_eq_instr_iff] at hno
  have hnone : assemble op bs = none := by simpa [Option.eq_none_iff_forall_ne_some] using hno
  rw [decode, decodeCmd_cons bs hop, hnone]

end Sys2Proof

namespace Sys2Proof.Machine

variable {s : State} {p : Point} {ps : List Point} {e : Fault}

/-! The faults of each operation that reads or writes cells. -/

theorem exec_takeFrame_eq_fault_iff :
    exec .takeFrame s = .fault e ↔ s.frameReady = true ∧ publishedFrame s = .error e := by
  cases hr : s.frameReady with
  | false => simp [exec_takeFrame_of_not_ready hr]
  | true => cases hf : publishedFrame s <;> simp [exec, execTakeFrame, hr, hf]

theorem exec_takeSweep_eq_fault_iff :
    exec .takeSweep s = .fault e ↔ s.sweepReady = true ∧
      readCells .swout s.cfg.fifoDepth s.swOut 0 s.swOutCount = .error e := by
  cases hr : s.sweepReady with
  | false => simp [exec_takeSweep_of_not_ready hr]
  | true =>
    cases hc : readCells .swout s.cfg.fifoDepth s.swOut 0 s.swOutCount <;>
      simp [exec, execTakeSweep, hr, hc]

theorem reportEmitted_eq_fault_iff {r : Except Fault (State × Nat)} :
    reportEmitted r = .fault e ↔ r = .error e := by
  cases r <;> simp [reportEmitted]

theorem exec_addPoint_eq_fault_iff :
    exec (.addPoint p) s = .fault e ↔ p.wellFormed = true ∧ offerPoint p s = .error e := by
  cases hp : p.wellFormed with
  | false => simp [(Effect.pointIllegal (s := s) p hp).exec_eq]
  | true => simp [exec, execAddPoint, legalPoint_eq, hp, reportEmitted_eq_fault_iff]

theorem exec_addBatch_eq_fault_iff {b : Batch} :
    exec (.addBatch b) s = .fault e ↔
      (∀ p ∈ b.points, p.wellFormed = true) ∧ offerPoints b.points s = .error e := by
  by_cases hb : ∀ p ∈ b.points, p.wellFormed = true
  · have hl : b.points.all legalPoint = true := List.all_eq_true.mpr hb
    simp only [exec, execAddBatch, hl, if_true, reportEmitted_eq_fault_iff, and_iff_right hb]
  · have hnext := (Effect.batchIllegal (s := s) b (by simpa using hb)).exec_eq
    simp [hnext, hb]

/-! A point with no cell to go to. -/

/-- Without a closing wrap an offer is its append (R131). -/
theorem offerPoint_of_not_closes (h : closesSweep p s = false) :
    offerPoint p s = appendPoint p (s.track (rel s.cfg p.angleCd)) := by
  have hclose : closeOnWrap p s = .ok (s, 0) := by simp [closeOnWrap, h]
  rw [offerPoint, hclose]
  cases ha : appendPoint p (s.track (rel s.cfg p.angleCd)) <;> simp [ha]

theorem appendPoint_of_no_cell (hw : inWindow s.cfg p = true) (hd : s.cfg.fifoDepth ≤ s.swCount) :
    appendPoint p s = .error (.noSuchCell .swbuf s.swCount) := by
  simp [appendPoint, hw, writeCells, Nat.not_lt.mpr hd]

/-! A batch beside its `ADD_POINT`s (R135). -/

/-- The first point whose offer faults is the first `ADD_POINT` to fault. -/
theorem execAll_addPoints_fault (hps : ∀ p ∈ ps, p.wellFormed = true)
    (h : offerPoints ps s = .error e) (rs : List Result) :
    execAll (ps.map .addPoint) (s.withRes rs) = .fault e := by
  induction ps generalizing s rs with
  | nil => cases h
  | cons p ps ih =>
    obtain ⟨hp, hps⟩ := List.forall_mem_cons.mp hps
    have hoffer := offerPoint_withRes s rs p
    cases h1 : offerPoint p s with
    | error e' =>
      obtain rfl : e' = e := by simpa [offerPoints, h1] using h
      rw [h1] at hoffer
      simp only [List.map_cons, execAll, exec_addPoint_eq_fault_iff.mpr ⟨hp, hoffer⟩]
    | ok x =>
      have hrest : offerPoints ps x.1 = .error e := by
        cases h2 : offerPoints ps x.1 with
        | error e' => simpa [offerPoints, h1, h2] using h
        | ok y => simp [offerPoints, h1, h2] at h
      rw [h1] at hoffer
      have hadd : exec (.addPoint p) (s.withRes rs) =
          .next (x.1.withRes (rs ++ [.emitted x.2])) := exec_addPoint_of_offerPoint hp hoffer
      exact (execAll_cons hadd _).trans (ih hps hrest _)

/-- A run of `ADD_POINT`s faults exactly as the points offered one after the other do. -/
theorem execAll_addPoints_eq_fault_iff (hps : ∀ p ∈ ps, p.wellFormed = true) :
    execAll (ps.map .addPoint) s = .fault e ↔ offerPoints ps s = .error e := by
  refine ⟨fun h => ?_, fun h => execAll_addPoints_fault hps h s.resOut⟩
  cases ho : offerPoints ps s with
  | error e' =>
    cases (execAll_addPoints_fault hps ho s.resOut).symm.trans h
    rfl
  | ok x =>
    obtain ⟨ks, -, -, hnext⟩ := execAll_addPoints hps ho
    cases hnext.symm.trans h

/-! Every other operation completes, whatever the state. -/

/-- Only the takes and the offers read or write cells that may be missing. -/
theorem exec_missing_cells_or_total (i : Instr) (s : State) :
    (i = .takeFrame ∨ i = .takeSweep ∨ (∃ p, i = .addPoint p) ∨ ∃ b, i = .addBatch b) ∨
      ∃ t, exec i s = .next t := by
  cases i with
  | takeFrame | takeSweep | addPoint | addBatch => simp
  | rxByte d => exact .inr ((exists_effect_rxByte d s).imp fun _ => Effect.exec_eq)
  | rxError => exact .inr ((exists_effect_rxError s).imp fun _ => Effect.exec_eq)
  | beginRx v => exact .inr ⟨_, (Effect.begun v).exec_eq⟩
  | decodeFrame f => exact .inr ⟨_, (Effect.decoded f).exec_eq⟩
  | sweepInvalidate => exact .inr ⟨_, Effect.sweepInvalidated.exec_eq⟩
  | setForward | setReverse | setSteering | pause | unpause | togglePause | estopEdge =>
    obtain ⟨-, -, hgate⟩ := latchStateMachine
    exact .inr (hgate _ s (by simp))

/-- Settles O51: an operation faults when the shared operation under it does, and for each of those
the laws of the model say when that is. -/
theorem missingCellsFault : Obligations.MissingCellsFault := by
  refine ⟨fun s => ?_, fun s => ?_, fun p s wrapped hwrap => ?_, fun p s hp hv hw hd => ?_,
    fun b s => ?_, fun i s e h => ?_⟩
  · simp only [exec_takeFrame_eq_fault_iff, exists_and_left, publishedFrame_error, State.published]
  · simp only [exec_takeSweep_eq_fault_iff, exists_and_left, readCells_error, Nat.zero_le,
      true_and, Nat.zero_add]
  · obtain rfl : wrapped = closesSweep p s :=
      Bool.eq_iff_iff.mpr (hwrap.trans closesSweep_iff.symm)
    simp only [exec_addPoint_eq_fault_iff, exists_and_left, offerPoint_error, Point.wellFormed_iff,
      inWindow_iff]
  · have hclose : closesSweep p s = false := by simp [closesSweep, wraps, hv]
    refine exec_addPoint_eq_fault_iff.mpr ⟨Point.wellFormed_iff.mpr hp, ?_⟩
    rw [offerPoint_of_not_closes hclose]
    exact appendPoint_of_no_cell (inWindow_iff.mpr hw) hd
  · simp only [exec_addBatch_eq_fault_iff, exists_and_left, ← Point.wellFormed_iff]
    exact and_congr_right fun hps =>
      exists_congr fun e => (execAll_addPoints_eq_fault_iff hps).symm
  · rcases exec_missing_cells_or_total i s with hi | ⟨t, ht⟩
    · exact hi
    · cases ht.symm.trans h

/-! Steps that run no operation. -/

/-- Settles O5: the decoder reads none of the three words as an operation, and the step refuses. -/
theorem wordsWithoutMeaningRefused : Obligations.WordsWithoutMeaningRefused :=
  ⟨fun _ _ hw => step_of_wrongLength hw rfl,
    fun _ _ _ _ hw hop hno => step_of_wrongLength hw (decode_cmd_eq_wrongLength hop hno),
    fun _ _ hw => step_of_noEdge hw rfl⟩

/-- Settles O8: a step looks at the inbox first. -/
theorem emptyInboxChangesNothing : Obligations.EmptyInboxChangesNothing := by
  intro s hs
  rw [step, hs]

end Sys2Proof.Machine
